-- ==== Sys2Proof/Word.lean ====
section
/-! DEFINITION. The native datum of the AX3612 (R8, R33): a word of 36 bits, and an octet.
Bits are numbered from 0 at the most significant end (R4); the field accessors are in Machine/Bits.lean. -/

namespace Sys2Proof

/-- A word: 36 bits (R8). -/
abbrev Word := BitVec 36

/-- An octet: 8 bits (R8). -/
abbrev Octet := BitVec 8

/-- A microword: 96 bits (R248). -/
abbrev Microword := BitVec 96

end Sys2Proof
end

