-- ==== Sys2Proof/Syntax.lean ====
section
/-! DEFINITION. The commands of the block, whole: one constructor of `Instr` for each row of
spec/opcode_table.json. For an engine instruction the operands are the engine's global number `e` (R1 Roles:
12c + e) and the fields of its encoding (R126): `a`, `b`, immediates and displacements as the raw field
values, and `u` for the fields the instruction does not use, which must be zero (R129). -/

namespace Sys2Proof

/-- Who makes an access to a home slice or to the control window (R331, R408): an engine, a block mover, the
Septeg engine of the Ethernet subsystem, the management processor, or the debug bus master. -/
inductive Agent where
  /-- Engine with this global number. -/
  | engine (e : Nat)
  /-- Block mover of this cluster. -/
  | mover (c : Nat)
  /-- The Septeg engine. -/
  | septeg
  /-- The management processor (Welana). -/
  | mgmt
  /-- The debug bus master. -/
  | debug
deriving DecidableEq, Repr

/-- Where a management command comes from (R483, R494). -/
inductive MbSrc where
  /-- The mailbox of this tenant. -/
  | tenant (t : Nat)
  /-- The network management mailbox of this session. -/
  | network (ses : Nat)
  /-- The debug mailbox. -/
  | debug
deriving DecidableEq, Repr

/-- What follows a repeat instruction, as far as R164 and R167 ask. -/
inductive RepClass where
  /-- An instruction that R164 lets be repeated. -/
  | repeatable
  /-- A load whose destination includes W`b` (R167). -/
  | overwritesBase
  /-- Any other instruction (R164). -/
  | other
deriving DecidableEq, Repr

/-- A frame as a port receives it (R413, R414): its octets from the destination address on, without
preamble, delimiter and FCS; its arrival stamp in sixty-fourths of a nanosecond of device time (R440). -/
structure RxFrame where
  octets : List Octet
  /-- The FCS is correct (R414 check 2). -/
  fcsOk : Bool
  /-- A codeword of the frame was uncorrectable (R414 check 1). -/
  fecBad : Bool
  /-- The frame arrived in fragments (R428). -/
  fragmented : Bool
  /-- 802.3br rejects the fragment sequence (R428). -/
  fragBad : Bool
  arrival : Nat
deriving DecidableEq, Repr

/-- The patterns of ARB_OUT and ARB_IN (R539). -/
inductive ArbPattern where
  | absent | primary | standby | failed
deriving DecidableEq, Repr

/-- The units whose failure is a failure of the device (R535). -/
inductive FailUnit where
  | homeOrFabric | releaseUnit | ethernetCommon | management | welana | supply | temperature | reference
deriving DecidableEq, Repr

/-- The supply rails (R633). -/
inductive Rail where
  | vddAon | vddPll | vddIo | vddEng | vddFab | vddDbg | vddMphy | vddSd | vddq | vddhSd
deriving DecidableEq, Repr

/-- What the boot sequencer finds outside the device at a start (R54, R551, R553). -/
structure BootEnv where
  /-- The flash answers and its SFDP capacity is one of the three of R553. -/
  flashOk : Bool
  /-- A majority decides every field of the OTP (R551). -/
  otpOk : Bool
deriving DecidableEq, Repr

/-- The commands: one constructor for each row of spec/opcode_table.json, in the table's order (UNASSIGNED_OPCODE
stands with the instructions).
Each docstring names the rule the table cites. -/
inductive Instr where
  /-- NOP (R169). -/
  | nop (e u : Nat)
  /-- CSYNC (R117). -/
  | csync (e u : Nat)
  /-- DRAIN (R157). -/
  | drain (e u : Nat)
  /-- FENCE_L (R350). -/
  | fenceL (e u : Nat)
  /-- FENCE_S (R350). -/
  | fenceS (e u : Nat)
  /-- FENCE_LS (R350). -/
  | fenceLS (e u : Nat)
  /-- RETX (R230). -/
  | retx (e u : Nat)
  /-- BRK (R169). -/
  | brk (e u : Nat)
  /-- COMMIT (R302). -/
  | commit (e u : Nat)
  /-- YIELD (R307). -/
  | yieldI (e u : Nat)
  /-- STEAL (R173). -/
  | steal (e u : Nat)
  /-- MOV (R136). -/
  | mov (e a b : Nat)
  /-- ADD (R136). -/
  | add (e a b : Nat)
  /-- SUB (R136). -/
  | sub (e a b : Nat)
  /-- ADC (R136). -/
  | adc (e a b : Nat)
  /-- SBC (R136). -/
  | sbc (e a b : Nat)
  /-- AND (R136). -/
  | and (e a b : Nat)
  /-- OR (R136). -/
  | or (e a b : Nat)
  /-- XOR (R136). -/
  | xor (e a b : Nat)
  /-- ANDN (R136). -/
  | andn (e a b : Nat)
  /-- NOT (R136). -/
  | not (e a b : Nat)
  /-- NEG (R136). -/
  | neg (e a b : Nat)
  /-- CMP (R136). -/
  | cmp (e a b : Nat)
  /-- TST (R136). -/
  | tst (e a b : Nat)
  /-- SHL (R138). -/
  | shl (e a b : Nat)
  /-- SHR (R138). -/
  | shr (e a b : Nat)
  /-- SAR (R138). -/
  | sar (e a b : Nat)
  /-- ROL (R136). -/
  | rol (e a b : Nat)
  /-- ADD_S (R136). -/
  | addS (e a b : Nat)
  /-- SUB_S (R136). -/
  | subS (e a b : Nat)
  /-- NEG_S (R136). -/
  | negS (e a b : Nat)
  /-- ABS (R136). -/
  | abs (e a b : Nat)
  /-- ABS_S (R136). -/
  | absS (e a b : Nat)
  /-- MIN (R136). -/
  | min (e a b : Nat)
  /-- MAX (R136). -/
  | max (e a b : Nat)
  /-- MINU (R136). -/
  | minu (e a b : Nat)
  /-- MAXU (R136). -/
  | maxu (e a b : Nat)
  /-- PACK (R138). -/
  | pack (e a b : Nat)
  /-- UNPK (R138). -/
  | unpk (e a b : Nat)
  /-- CLZ (R136). -/
  | clz (e a b : Nat)
  /-- RDT (R171). -/
  | rdt (e a u : Nat)
  /-- MUL (R140). -/
  | mul (e a b : Nat)
  /-- MULU (R140). -/
  | mulu (e a b : Nat)
  /-- MAC (R141). -/
  | mac (e a b : Nat)
  /-- MAC_S (R140). -/
  | macS (e a b : Nat)
  /-- DIV (R156). -/
  | div (e a b : Nat)
  /-- DIVU (R156). -/
  | divu (e a b : Nat)
  /-- REM (R156). -/
  | rem (e a b : Nat)
  /-- REMU (R156). -/
  | remu (e a b : Nat)
  /-- FADD (R153). -/
  | fadd (e a b : Nat)
  /-- FSUB (R153). -/
  | fsub (e a b : Nat)
  /-- FMUL (R153). -/
  | fmul (e a b : Nat)
  /-- FCMP (R152). -/
  | fcmp (e a b : Nat)
  /-- FNEG (R150). -/
  | fneg (e a b : Nat)
  /-- FABS (R150). -/
  | fabs (e a b : Nat)
  /-- FMIN (R150). -/
  | fmin (e a b : Nat)
  /-- FMAX (R150). -/
  | fmax (e a b : Nat)
  /-- FLT (R151). -/
  | flt (e a b : Nat)
  /-- FIX (R151). -/
  | fix (e a b : Nat)
  /-- FDIV (R154). -/
  | fdiv (e a b : Nat)
  /-- FSQRT (R154). -/
  | fsqrt (e a b : Nat)
  /-- FADD_D (R153). -/
  | faddD (e a b : Nat)
  /-- FSUB_D (R153). -/
  | fsubD (e a b : Nat)
  /-- FMUL_D (R153). -/
  | fmulD (e a b : Nat)
  /-- FCMP_D (R152). -/
  | fcmpD (e a b : Nat)
  /-- FNEG_D (R150). -/
  | fnegD (e a b : Nat)
  /-- FABS_D (R150). -/
  | fabsD (e a b : Nat)
  /-- FLT_D (R151). -/
  | fltD (e a b : Nat)
  /-- FIX_D (R151). -/
  | fixD (e a b : Nat)
  /-- FDIV_D (R154). -/
  | fdivD (e a b : Nat)
  /-- FSQRT_D (R154). -/
  | fsqrtD (e a b : Nat)
  /-- FCVT_D_F (R151). -/
  | fcvtDF (e a b : Nat)
  /-- FCVT_F_D (R151). -/
  | fcvtFD (e a b : Nat)
  /-- JR (R161). -/
  | jr (e a u : Nat)
  /-- CALLR (R161). -/
  | callr (e a b : Nat)
  /-- FJMP (R163). -/
  | fjmp (e a b : Nat)
  /-- FCALL (R163). -/
  | fcall (e a b : Nat)
  /-- FRET (R163). -/
  | fret (e a u : Nat)
  /-- SEGLD (R94). -/
  | segld (e a b : Nat)
  /-- SEGINV (R97). -/
  | seginv (e a b : Nat)
  /-- CUST (R261). -/
  | cust (e n a b : Nat)
  /-- MOVQ (R139). -/
  | movq (e a imm : Nat)
  /-- ADDQ (R139). -/
  | addq (e a imm : Nat)
  /-- CMPQ (R139). -/
  | cmpq (e a imm : Nat)
  /-- SHLQ (R139). -/
  | shlq (e a imm : Nat)
  /-- SHRQ (R139). -/
  | shrq (e a imm : Nat)
  /-- SARQ (R139). -/
  | sarq (e a imm : Nat)
  /-- ROLQ (R139). -/
  | rolq (e a imm : Nat)
  /-- EXTP (R142). -/
  | extp (e a imm : Nat)
  /-- RPT (R165). -/
  | rpt (e a imm : Nat) (nxt : RepClass)
  /-- RPTU (R165). -/
  | rptu (e a imm : Nat) (nxt : RepClass)
  /-- MFR (R72). -/
  | mfr (e a imm : Nat)
  /-- MTR (R74). -/
  | mtr (e a imm : Nat)
  /-- SVC (R174). -/
  | svc (e a imm : Nat)
  /-- MVC (R174). -/
  | mvc (e a imm : Nat)
  /-- TSTB (R139). -/
  | tstb (e a imm : Nat)
  /-- LD (R158). -/
  | ld (e a b seg disp : Nat)
  /-- ST (R159). -/
  | st (e a b seg disp : Nat)
  /-- LDD (R158). -/
  | ldd (e a b seg disp : Nat)
  /-- STD (R158). -/
  | std (e a b seg disp : Nat)
  /-- LDR (R120). -/
  | ldr (e a b seg disp : Nat)
  /-- LDR_D (R120). -/
  | ldrD (e a b seg disp : Nat)
  /-- STC (R123). -/
  | stc (e a b seg disp : Nat)
  /-- STC_D (R123). -/
  | stcD (e a b seg disp : Nat)
  /-- LDI (R139). -/
  | ldi (e a u imm : Nat)
  /-- LUI (R139). -/
  | lui (e a u imm : Nat)
  /-- ADDI (R139). -/
  | addi (e a b u imm : Nat)
  /-- ADDI_S (R139). -/
  | addiS (e a b u imm : Nat)
  /-- ANDI (R139). -/
  | andi (e a b u imm : Nat)
  /-- ORI (R139). -/
  | ori (e a b u imm : Nat)
  /-- XORI (R139). -/
  | xori (e a b u imm : Nat)
  /-- CMPI (R139). -/
  | cmpi (e a u imm : Nat)
  /-- B (R161). -/
  | b (e cond u disp : Nat)
  /-- CALL (R161). -/
  | call (e a u disp : Nat)
  /-- DBNZ (R161). -/
  | dbnz (e a u disp : Nat)
  /-- UNASSIGNED_OPCODE (R129). -/
  | unassignedOpcode (e : Nat) (long : Bool)
  /-- LONG_OP_LANDING (R197). -/
  | longOpLanding (e : Nat)
  /-- STC_DECISION (R654). -/
  | stcDecision (e stall : Nat)
  /-- EXCEPTION_ENTRY (R226). -/
  | exceptionEntry (e : Nat)
  /-- BUDGET_EXHAUSTED (R295). -/
  | budgetExhausted (e : Nat)
  /-- DEADLINE_REACHED (R310). -/
  | deadlineReached (k : Nat)
  /-- RESERVATION_EXPIRY (R122). -/
  | reservationExpiry (e : Nat)
  /-- MACHINE_CHECK_HOLD_TIMEOUT (R235). -/
  | machineCheckHoldTimeout (e : Nat)
  /-- IREQ_WRITE (R653). -/
  | ireqWrite (ag : Agent) (e : Nat) (w : Word)
  /-- STORE_DRAIN (R346). -/
  | storeDrain (e idx : Nat)
  /-- STORE_ACKNOWLEDGED (R345). -/
  | storeAcknowledged (e idx : Nat)
  /-- STORE_NO_ANSWER (R355). -/
  | storeNoAnswer (e idx : Nat)
  /-- COMMIT_BEGINS (R303). -/
  | commitBegins (e stall : Nat)
  /-- COMMIT_POINT (R304). -/
  | commitPoint (e stall : Nat)
  /-- STEAL_SEARCH (R286). -/
  | stealSearch (e stall : Nat)
  /-- RESUMED_ENTRY_CLAIMABLE (R307). -/
  | resumedEntryClaimable (k : Nat)
  /-- WORK_WAIT_TIMEOUT (R289). -/
  | workWaitTimeout (e : Nat)
  /-- MICROWORD_REWRITE (R263). -/
  | microwordRewrite (e stall : Nat)
  /-- CSTORE_SCRUB (R264). -/
  | cstoreScrub (e addr : Nat)
  /-- COLLAR_MISMATCH (R208). -/
  | collarMismatch (e : Nat)
  /-- ENGINE_SILENT (R514). -/
  | engineSilent (e : Nat)
  /-- ENGINE_FAILURE_RECOVERY (R515). -/
  | engineFailureRecovery (e : Nat)
  /-- CLUSTER_DOMAIN_LOST (R517). -/
  | clusterDomainLost (c : Nat)
  /-- ENGINE_AUTO_RESTORE (R519). -/
  | engineAutoRestore (e : Nat) (pass : Bool)
  /-- LOST_LINE_REWRITE (R518). -/
  | lostLineRewrite (line : Nat) (ws : List Word)
  /-- DESCRIPTOR_LINE_REWRITE (R649). -/
  | descriptorLineRewrite (line : Nat)
  /-- ADMISSION_RERUN (R386). -/
  | admissionRerun
  /-- SHED_RESOURCES_FREE (R388). -/
  | shedResourcesFree (t : Nat)
  /-- RDS (R328). -/
  | rds (e line : Nat)
  /-- RDX (R328). -/
  | rdx (e line : Nat)
  /-- UPG (R328). -/
  | upg (e line : Nat)
  /-- MOD (R328). -/
  | modI (e line : Nat)
  /-- WBK (R328). -/
  | wbk (e line : Nat)
  /-- RDC (R321). -/
  | rdc (e line : Nat)
  /-- WRT (R332). -/
  | wrt (e line : Nat)
  /-- WATCH (R339). -/
  | watch (e line kind : Nat)
  /-- LOCK (R334). -/
  | lock (e h : Nat)
  /-- PUBLISH (R334). -/
  | publish (e h : Nat)
  /-- DISCARD (R334). -/
  | discard (k h : Nat)
  /-- RDO (R331). -/
  | rdo (ag : Agent) (line : Nat)
  /-- WRL (R331). -/
  | wrl (ag : Agent) (line : Nat) (ws : List Word)
  /-- WRM (R331). -/
  | wrm (ag : Agent) (line en : Nat) (ws : List Word)
  /-- DATA (R327). -/
  | dataM (ag : Agent) (line stall : Nat)
  /-- ACK (R327). -/
  | ack (ag : Agent) (line stall : Nat)
  /-- NAK (R338). -/
  | nak (ag : Agent) (line : Nat)
  /-- NAK_RETRY (R338). -/
  | nakRetry (ag : Agent) (line : Nat)
  /-- FAIL (R327). -/
  | fail (ag : Agent) (line stall : Nat)
  /-- INV (R347). -/
  | inv (e line : Nat)
  /-- INV_APPLY (R347). -/
  | invApply (e : Nat)
  /-- FWDS (R329). -/
  | fwds (e line : Nat)
  /-- FWDX (R329). -/
  | fwdx (e line : Nat)
  /-- RCL (R329). -/
  | rcl (e line : Nat)
  /-- RSVL (R339). -/
  | rsvl (e line : Nat)
  /-- IACK (R327). -/
  | iack (c line : Nat)
  /-- FDATA (R329). -/
  | fdata (e line : Nat)
  /-- FNONE (R330). -/
  | fnone (e line : Nat)
  /-- MEMORY_SCRUB (R52). -/
  | memoryScrub (slot : Nat)
  /-- BURST_UNANSWERED (R513). -/
  | burstUnanswered (ch : Nat)
  /-- INTERFACE_LOST (R513). -/
  | interfaceLost (ch : Nat)
  /-- CHANNEL_ERROR_RATE (R513). -/
  | channelErrorRate (sub : Nat)
  /-- MEMORY_CHANNEL_RETIREMENT (R520). -/
  | memoryChannelRetirement (ch : Nat)
  /-- BOUNDARY_STAGING (R273). -/
  | boundaryStaging (k : Nat)
  /-- RELEASE_EVENT (R276). -/
  | releaseEvent (tick : Nat)
  /-- OVERFLOW_MOVE (R284). -/
  | overflowMove (e : Nat)
  /-- CONTEXT_RECORD_WRITE (R271). -/
  | contextRecordWrite (ag : Agent) (k i : Nat) (w : Word)
  /-- TENANT_RECORD_WRITE (R362). -/
  | tenantRecordWrite (ag : Agent) (off : Nat) (w : Word)
  /-- RSVCFG_WRITE (R121). -/
  | rsvcfgWrite (ag : Agent) (w : Word)
  /-- PCTL_CLEAR (R214). -/
  | pctlClear (ag : Agent) (e : Nat) (w : Word)
  /-- READ_CLEAR (R12). -/
  | readClear (ag : Agent) (off : Nat) (dbl : Bool)
  /-- REGISTER_WRITE (R12). -/
  | registerWrite (ag : Agent) (off : Nat) (w : Word)
  /-- MAILBOX_DOORBELL (R484). -/
  | mailboxDoorbell (ag : Agent) (src : MbSrc) (w : Word)
  /-- HEALTH (R498). -/
  | health (src : MbSrc) (msg : List Word)
  /-- JOURNAL_READ (R507). -/
  | journalRead (src : MbSrc) (msg : List Word)
  /-- ADMISSION_QUERY (R498). -/
  | admissionQuery (src : MbSrc) (msg : List Word)
  /-- NOTICE_READ (R487). -/
  | noticeRead (src : MbSrc) (msg : List Word)
  /-- RECORD_READ (R497). -/
  | recordRead (src : MbSrc) (msg : List Word)
  /-- TENANT_CREATE (R485). -/
  | tenantCreate (src : MbSrc) (msg : List Word)
  /-- TENANT_RETIRE (R497). -/
  | tenantRetire (src : MbSrc) (msg : List Word)
  /-- TENANT_RETIRE_COMPLETE (R497). -/
  | tenantRetireComplete (t : Nat)
  /-- TENANT_SET (R497). -/
  | tenantSet (src : MbSrc) (msg : List Word)
  /-- TENANT_SEAL (R382). -/
  | tenantSeal (src : MbSrc) (msg : List Word)
  /-- TENANT_UNSEAL (R497). -/
  | tenantUnseal (src : MbSrc) (msg : List Word)
  /-- SEGMENT_ALLOCATE (R499). -/
  | segmentAllocate (src : MbSrc) (msg : List Word)
  /-- SEGMENT_FREE (R499). -/
  | segmentFree (src : MbSrc) (msg : List Word)
  /-- SEGMENT_RESIZE (R499). -/
  | segmentResize (src : MbSrc) (msg : List Word)
  /-- CONTEXT_CREATE (R500). -/
  | contextCreate (src : MbSrc) (msg : List Word)
  /-- CONTEXT_SET (R500). -/
  | contextSet (src : MbSrc) (msg : List Word)
  /-- CONTEXT_ARM (R500). -/
  | contextArm (src : MbSrc) (msg : List Word)
  /-- CONTEXT_DISARM (R500). -/
  | contextDisarm (src : MbSrc) (msg : List Word)
  /-- CONTEXT_RETIRE (R500). -/
  | contextRetire (src : MbSrc) (msg : List Word)
  /-- BIND (R456). -/
  | bind (src : MbSrc) (msg : List Word)
  /-- UNBIND (R497). -/
  | unbind (src : MbSrc) (msg : List Word)
  /-- SESSION_INSTALL (R446). -/
  | sessionInstall (src : MbSrc) (msg : List Word)
  /-- SESSION_RETIRE (R501). -/
  | sessionRetire (src : MbSrc) (msg : List Word)
  /-- KEY_INSTALL (R448). -/
  | keyInstall (src : MbSrc) (msg : List Word)
  /-- KEY_SELECT (R497). -/
  | keySelect (src : MbSrc) (msg : List Word)
  /-- PORT_SET (R497). -/
  | portSet (src : MbSrc) (msg : List Word)
  /-- STREAM_SET (R497). -/
  | streamSet (src : MbSrc) (msg : List Word)
  /-- TIME_SET (R497). -/
  | timeSet (src : MbSrc) (msg : List Word)
  /-- CHANNEL_BIND (R393). -/
  | channelBind (src : MbSrc) (msg : List Word)
  /-- CHANNEL_UNBIND (R392). -/
  | channelUnbind (src : MbSrc) (msg : List Word)
  /-- FIRMWARE_STAGE (R502). -/
  | firmwareStage (src : MbSrc) (msg : List Word)
  /-- FIRMWARE_STAGE_COMPLETE (R502). -/
  | firmwareStageComplete (kind target : Nat)
  /-- FIRMWARE_ACTIVATE (R530). -/
  | firmwareActivate (src : MbSrc) (msg : List Word)
  /-- FIRMWARE_ABANDON (R497). -/
  | firmwareAbandon (src : MbSrc) (msg : List Word)
  /-- UNIT_RETIRE (R526). -/
  | unitRetire (src : MbSrc) (msg : List Word)
  /-- UNIT_RESTORE (R527). -/
  | unitRestore (src : MbSrc) (msg : List Word)
  /-- UNIT_RESTORE_COMPLETE (R389). -/
  | unitRestoreComplete (ukind unit : Nat) (pass : Bool)
  /-- GROUPS_SET (R503). -/
  | groupsSet (src : MbSrc) (msg : List Word)
  /-- POWER_POLICY (R617). -/
  | powerPolicy (src : MbSrc) (msg : List Word)
  /-- PAIRING (R549). -/
  | pairing (src : MbSrc) (msg : List Word)
  /-- WITNESS_GRANT (R547). -/
  | witnessGrant (src : MbSrc) (msg : List Word)
  /-- DEBUG_GRANT (R606). -/
  | debugGrant (src : MbSrc) (msg : List Word)
  /-- DEBUG_REVOKE (R607). -/
  | debugRevoke (src : MbSrc) (msg : List Word)
  /-- PLATFORM_SET (R497). -/
  | platformSet (src : MbSrc) (msg : List Word)
  /-- STORE_REBASE (R511). -/
  | storeRebase
  /-- MP_HEARTBEAT_LOST (R477). -/
  | mpHeartbeatLost
  /-- CUSTOMER_SWITCH_TIME (R266). -/
  | customerSwitchTime
  /-- VENDOR_UPDATE_ENGINE (R267). -/
  | vendorUpdateEngine (e : Nat)
  /-- MANTLE_ENGINE_SWITCH (R533). -/
  | mantleEngineSwitch (e : Nat)
  /-- REPLACEMENT_COMPLETE (R532). -/
  | replacementComplete (kind entry : Nat)
  /-- MOVER_ARM (R395). -/
  | moverArm (ag : Agent) (c n : Nat) (shadow : Bool)
  /-- TRANSFER_START (R399). -/
  | transferStart (c : Nat)
  /-- TRANSFER_END (R404). -/
  | transferEnd (c : Nat)
  /-- MOVER_ABORT (R406). -/
  | moverAbort (ag : Agent) (c n : Nat)
  /-- SHADOW_DISARM (R406). -/
  | shadowDisarm (ag : Agent) (c n : Nat)
  /-- MOVER_REQUEST_TIMEOUT (R405). -/
  | moverRequestTimeout (c : Nat)
  /-- MOVER_FAILURE (R523). -/
  | moverFailure (c : Nat)
  /-- FRAME_RECEIVED (R414). -/
  | frameReceived (p : Nat) (f : RxFrame)
  /-- ELIMINATION_RESET_TIMEOUT (R431). -/
  | eliminationResetTimeout (h : Nat)
  /-- SLOW_PATH_FRAME (R417). -/
  | slowPathFrame (p : Nat)
  /-- LINK_UP (R412). -/
  | linkUp (p : Nat)
  /-- LINK_DOWN (R412). -/
  | linkDown (p : Nat)
  /-- FRAME_TRANSMIT (R421). -/
  | frameTransmit (p : Nat)
  /-- PREEMPTION_VERIFY (R426). -/
  | preemptionVerify (p : Nat) (ok : Bool)
  /-- GATE_ENTRY_ADVANCE (R425). -/
  | gateEntryAdvance (stream : Bool) (i : Nat)
  /-- GATE_CHANGE_ARM (R424). -/
  | gateChangeArm (ag : Agent) (stream : Bool) (i : Nat) (w : Word)
  /-- GATE_CHANGE_TIME (R424). -/
  | gateChangeTime (stream : Bool) (i : Nat)
  /-- DEVICE_TIME_STEP (R646). -/
  | deviceTimeStep (ag : Agent) (sec ns : Word)
  /-- DEVICE_TIME_RATE (R435). -/
  | deviceTimeRate (ag : Agent) (w : Word)
  /-- GPTP_FRAME_RECEIVED (R439). -/
  | gptpFrameReceived (p : Nat)
  /-- GPTP_SYNC_SEND (R438). -/
  | gptpSyncSend
  /-- GPTP_MASTER_LOST (R439). -/
  | gptpMasterLost
  /-- SEPTEG_PUBLISH (R458). -/
  | septegPublish
  /-- SEPTEG_READ (R466). -/
  | septegRead
  /-- SEPTEG_WRITE (R466). -/
  | septegWrite
  /-- SEPTEG_MAILBOX (R468). -/
  | septegMailbox
  /-- MAILBOX_RESPONSE (R468). -/
  | mailboxResponse (ses : Nat)
  /-- SEPTEG_TIME (R469). -/
  | septegTime
  /-- SEPTEG_HEARTBEAT (R467). -/
  | septegHeartbeat
  /-- HEARTBEAT_SEND (R467). -/
  | heartbeatSend (ses : Nat)
  /-- SESSION_DOWN (R467). -/
  | sessionDown (ses : Nat)
  /-- OUTPUT_PUBLISH (R462). -/
  | outputPublish (k : Nat)
  /-- PAIRSYNC (R471). -/
  | pairsync
  /-- PAIRSYNC_ACK (R471). -/
  | pairsyncAck
  /-- PAIRSYNC_RETRANSMIT (R471). -/
  | pairsyncRetransmit
  /-- EPOCH_MARKER (R541). -/
  | epochMarker
  /-- RESYNCHRONISATION (R543). -/
  | resynchronisation
  /-- ARB_IN_PATTERN (R545). -/
  | arbInPattern (pat : ArbPattern)
  /-- ARB_IN_ABSENT (R539). -/
  | arbInAbsent
  /-- SWITCHOVER_TIME (R549). -/
  | switchoverTime
  /-- DEVICE_FAILURE (R536). -/
  | deviceFailure (unit : FailUnit)
  /-- DEVICE_RESTART (R536). -/
  | deviceRestart
  /-- WATCHDOG_EXPIRY (R535). -/
  | watchdogExpiry
  /-- SUPPLY_FAULT (R634). -/
  | supplyFault (rail : Rail) (below85 : Bool)
  /-- TJ_UPDATE (R618). -/
  | tjUpdate (temp : Word)
  /-- REF_INPUT_LOST (R622). -/
  | refInputLost (inB : Bool)
  /-- REF_INPUT_USABLE (R623). -/
  | refInputUsable (inB : Bool)
  /-- REF_HOLD_TIMEOUT (R623). -/
  | refHoldTimeout
  /-- POWER_ON_RESET (R625). -/
  | powerOnReset
  /-- DEVICE_RESET (R639). -/
  | deviceReset
  /-- COLD_START (R567). -/
  | coldStart (env : BootEnv)
  /-- MEMORY_INIT_COMPLETE (R65). -/
  | memoryInitComplete (cap : Nat)
  /-- RECOVERY_ANNOUNCE (R577). -/
  | recoveryAnnounce
  /-- RECOVERY_DATA (R577). -/
  | recoveryData (sender off : Nat) (octets : List Octet)
  /-- RECOVERY_INSTALL (R578). -/
  | recoveryInstall (sender len : Nat)
  /-- RECOVERY_SENDER_TIMEOUT (R577). -/
  | recoverySenderTimeout
  /-- LKW_LOCK (R563). -/
  | lkwLock (ag : Agent) (i : Nat)
  /-- LKW_RELEASE (R564). -/
  | lkwRelease (ag : Agent) (i : Nat)
  /-- PROGRAM_OWNER_SLOT (R581). -/
  | programOwnerSlot (ag : Agent) (slot : Nat)
  /-- SEAL (R581). -/
  | seal (ag : Agent)
  /-- OPEN (R581). -/
  | openI (ag : Agent)
  /-- PEARL_EXIT (R610). -/
  | pearlExit (e : Nat)
  /-- SLATE_ENTRY (R612). -/
  | slateEntry (c : Nat)
  /-- SLATE_EXIT (R613). -/
  | slateExit (c : Nat)
  /-- SABLE_ENTRY (R615). -/
  | sableEntry
  /-- SABLE_WAKE (R616). -/
  | sableWake
  /-- DEBUG_ATTACH (R588). -/
  | debugAttach
  /-- DEBUG_RESET (R589). -/
  | debugReset
  /-- SAMPLE (R586). -/
  | sample
  /-- PRELOAD (R586). -/
  | preload
  /-- EXTEST (R587). -/
  | extest
  /-- LEAVE_EXTEST (R587). -/
  | leaveExtest
  /-- BYPASS (R586). -/
  | bypass
  /-- DEBUG_READ_WORD (R591). -/
  | debugReadWord (space eng addr : Nat)
  /-- DEBUG_WRITE_WORD (R591). -/
  | debugWriteWord (space eng addr : Nat) (w : Word)
  /-- DEBUG_ACCESS_DONE (R591). -/
  | debugAccessDone (answered : Bool)
  /-- DEBUG_HALT_REQUEST (R596). -/
  | debugHaltRequest (g : Nat)
  /-- DEBUG_RELEASE (R598). -/
  | debugRelease (g : Nat)
  /-- HALT_TAKEN (R597). -/
  | haltTaken (e : Nat)
  /-- STOP_ALL (R604). -/
  | stopAll
  /-- STOP_ALL_RESUME (R604). -/
  | stopAllResume
  /-- GRANT_EXPIRY (R607). -/
  | grantExpiry
  /-- SEGINV_COMPLETE (R97). -/
  | seginvComplete (e stall : Nat)
  /-- CONTROL_WINDOW_LOAD_ANSWER (R210). -/
  | controlWindowLoadAnswer (e stall : Nat)
  /-- PADDED_STALL_END (R384). -/
  | paddedStallEnd (e : Nat)
  /-- NEAR_STORE_SCRUB (R233). -/
  | nearStoreScrub (e addr : Nat)
  /-- SEPTEG_WRITE_UNANSWERED (R466). -/
  | septegWriteUnanswered
  /-- WELANA_SWITCH_TIME (R530). -/
  | welanaSwitchTime
  /-- RECOVERY_LOADER_RESET (R578). -/
  | recoveryLoaderReset
  /-- STANDBY_SYNC_LOST (R543). -/
  | standbySyncLost
  /-- STANDBY_REFERENCE_INPUT_LOST (R621). -/
  | standbyReferenceInputLost (inB : Bool)
  /-- PEER_DELAY_MEASUREMENT (R438). -/
  | peerDelayMeasurement (p : Nat) (delay : Nat)
deriving DecidableEq, Repr

end Sys2Proof
end

