-- ==== Sys2Proof/WellFormed.lean ====
section
/-! DEFINITION. Well-formed commands: every operand names a unit that the device has and fits the field that holds it (R1, R12,
R16, R126, R269, R361, R413, R482, R495, R590). A command that is not well formed does not exist outside the model. -/

namespace Sys2Proof

/-- An engine of the 144 (R16). -/
def Opd.eng (e : Nat) : Bool := decide (e < 144)

/-- A cluster, with its home slice and its mover (R16). -/
def Opd.clu (c : Nat) : Bool := decide (c < 12)

/-- A port (R408). -/
def Opd.port (p : Nat) : Bool := decide (p < 4)

/-- A line number: 35 address bits without the three of the word in the line (R57). -/
def Opd.lineNo (l : Nat) : Bool := decide (l < 2 ^ 32)

/-- A context (R269). -/
def Opd.ctxNo (k : Nat) : Bool := decide (k < 16384)

/-- A tenant (R361). -/
def Opd.ten (t : Nat) : Bool := decide (t < 4096)

/-- A session (R445). -/
def Opd.session (n : Nat) : Bool := decide (n < 16384)

/-- Fields of 4, 8 and 18 bits of an instruction (R126). -/
def Opd.f4 (n : Nat) : Bool := decide (n < 16)
def Opd.u8 (n : Nat) : Bool := decide (n < 256)
def Opd.u18 (n : Nat) : Bool := decide (n < 262144)

/-- An agent that the device has. -/
def Opd.agent : Agent → Bool
  | .engine e => eng e
  | .mover c => clu c
  | _ => true

/-- A mailbox (R482, R483). -/
def Opd.mbox : MbSrc → Bool
  | .tenant t => ten t
  | .network n => session n
  | .debug => true

/-- A command message of this code: a header and at most 311 operand words (R495). -/
def Opd.msgWf (code : Nat) (src : MbSrc) (msg : List Word) : Bool :=
  mbox src && decide ((msg.headD 0).toNat / 2 ^ 27 % 2 ^ 9 = code ∧ 1 ≤ msg.length ∧ msg.length ≤ 312)

/-- A gate: of the 64 stream gates, or of a port (R423, R430). -/
def Opd.gateNo (stream : Bool) (i : Nat) : Bool := decide (i < if stream then 64 else 4)

/-- The control-window offset of a word of a tenant record, of SLOTMAP or of DEDIC (R361, R364, R382). -/
def Opd.tenantWord (off : Nat) : Bool :=
  decide (0o700000 ≤ off ∧ off < 0o700000 + 32768) || decide (0o100 ≤ off ∧ off ≤ 0o177)
    || (List.range 144).any fun e => decide (0o06000000 + 0o40000 * (e / 12) + 0o15000 + 0o10 * (e % 12) = off)

/-- How many units of a kind there are (R526). -/
def Opd.units (k : Nat) : Nat := [144, 12, 4, 4, 2, 2, 12].getD k 0

open Opd in
/-- Well-formed. -/
def wellFormed : Instr → Bool
  | .nop e u => eng e && u8 u
  | .csync e u => eng e && u8 u
  | .drain e u => eng e && u8 u
  | .fenceL e u => eng e && u8 u
  | .fenceS e u => eng e && u8 u
  | .fenceLS e u => eng e && u8 u
  | .retx e u => eng e && u8 u
  | .brk e u => eng e && u8 u
  | .commit e u => eng e && u8 u
  | .yieldI e u => eng e && u8 u
  | .steal e u => eng e && u8 u
  | .mov e a b => eng e && f4 a && f4 b
  | .add e a b => eng e && f4 a && f4 b
  | .sub e a b => eng e && f4 a && f4 b
  | .adc e a b => eng e && f4 a && f4 b
  | .sbc e a b => eng e && f4 a && f4 b
  | .and e a b => eng e && f4 a && f4 b
  | .or e a b => eng e && f4 a && f4 b
  | .xor e a b => eng e && f4 a && f4 b
  | .andn e a b => eng e && f4 a && f4 b
  | .not e a b => eng e && f4 a && f4 b
  | .neg e a b => eng e && f4 a && f4 b
  | .cmp e a b => eng e && f4 a && f4 b
  | .tst e a b => eng e && f4 a && f4 b
  | .shl e a b => eng e && f4 a && f4 b
  | .shr e a b => eng e && f4 a && f4 b
  | .sar e a b => eng e && f4 a && f4 b
  | .rol e a b => eng e && f4 a && f4 b
  | .addS e a b => eng e && f4 a && f4 b
  | .subS e a b => eng e && f4 a && f4 b
  | .negS e a b => eng e && f4 a && f4 b
  | .abs e a b => eng e && f4 a && f4 b
  | .absS e a b => eng e && f4 a && f4 b
  | .min e a b => eng e && f4 a && f4 b
  | .max e a b => eng e && f4 a && f4 b
  | .minu e a b => eng e && f4 a && f4 b
  | .maxu e a b => eng e && f4 a && f4 b
  | .pack e a b => eng e && f4 a && f4 b
  | .unpk e a b => eng e && f4 a && f4 b
  | .clz e a b => eng e && f4 a && f4 b
  | .rdt e a u => eng e && f4 a && f4 u
  | .mul e a b => eng e && f4 a && f4 b
  | .mulu e a b => eng e && f4 a && f4 b
  | .mac e a b => eng e && f4 a && f4 b
  | .macS e a b => eng e && f4 a && f4 b
  | .div e a b => eng e && f4 a && f4 b
  | .divu e a b => eng e && f4 a && f4 b
  | .rem e a b => eng e && f4 a && f4 b
  | .remu e a b => eng e && f4 a && f4 b
  | .fadd e a b => eng e && f4 a && f4 b
  | .fsub e a b => eng e && f4 a && f4 b
  | .fmul e a b => eng e && f4 a && f4 b
  | .fcmp e a b => eng e && f4 a && f4 b
  | .fneg e a b => eng e && f4 a && f4 b
  | .fabs e a b => eng e && f4 a && f4 b
  | .fmin e a b => eng e && f4 a && f4 b
  | .fmax e a b => eng e && f4 a && f4 b
  | .flt e a b => eng e && f4 a && f4 b
  | .fix e a b => eng e && f4 a && f4 b
  | .fdiv e a b => eng e && f4 a && f4 b
  | .fsqrt e a b => eng e && f4 a && f4 b
  | .faddD e a b => eng e && f4 a && f4 b
  | .fsubD e a b => eng e && f4 a && f4 b
  | .fmulD e a b => eng e && f4 a && f4 b
  | .fcmpD e a b => eng e && f4 a && f4 b
  | .fnegD e a b => eng e && f4 a && f4 b
  | .fabsD e a b => eng e && f4 a && f4 b
  | .fltD e a b => eng e && f4 a && f4 b
  | .fixD e a b => eng e && f4 a && f4 b
  | .fdivD e a b => eng e && f4 a && f4 b
  | .fsqrtD e a b => eng e && f4 a && f4 b
  | .fcvtDF e a b => eng e && f4 a && f4 b
  | .fcvtFD e a b => eng e && f4 a && f4 b
  | .jr e a u => eng e && f4 a && f4 u
  | .callr e a b => eng e && f4 a && f4 b
  | .fjmp e a b => eng e && f4 a && f4 b
  | .fcall e a b => eng e && f4 a && f4 b
  | .fret e a u => eng e && f4 a && f4 u
  | .segld e a b => eng e && f4 a && f4 b
  | .seginv e a b => eng e && f4 a && f4 b
  | .cust e n a b => eng e && decide (n < 32) && f4 a && f4 b
  | .movq e a imm => eng e && f4 a && u8 imm
  | .addq e a imm => eng e && f4 a && u8 imm
  | .cmpq e a imm => eng e && f4 a && u8 imm
  | .shlq e a imm => eng e && f4 a && u8 imm
  | .shrq e a imm => eng e && f4 a && u8 imm
  | .sarq e a imm => eng e && f4 a && u8 imm
  | .rolq e a imm => eng e && f4 a && u8 imm
  | .extp e a imm => eng e && f4 a && u8 imm
  | .rpt e a imm _ => eng e && f4 a && u8 imm
  | .rptu e a imm _ => eng e && f4 a && u8 imm
  | .mfr e a imm => eng e && f4 a && u8 imm
  | .mtr e a imm => eng e && f4 a && u8 imm
  | .svc e a imm => eng e && f4 a && u8 imm
  | .mvc e a imm => eng e && f4 a && u8 imm
  | .tstb e a imm => eng e && f4 a && u8 imm
  | .ld e a b seg disp => eng e && f4 a && f4 b && f4 seg && u18 disp
  | .st e a b seg disp => eng e && f4 a && f4 b && f4 seg && u18 disp
  | .ldd e a b seg disp => eng e && f4 a && f4 b && f4 seg && u18 disp
  | .std e a b seg disp => eng e && f4 a && f4 b && f4 seg && u18 disp
  | .ldr e a b seg disp => eng e && f4 a && f4 b && f4 seg && u18 disp
  | .ldrD e a b seg disp => eng e && f4 a && f4 b && f4 seg && u18 disp
  | .stc e a b seg disp => eng e && f4 a && f4 b && f4 seg && u18 disp
  | .stcD e a b seg disp => eng e && f4 a && f4 b && f4 seg && u18 disp
  | .ldi e a u imm => eng e && f4 a && u8 u && u18 imm
  | .lui e a u imm => eng e && f4 a && u8 u && u18 imm
  | .addi e a b u imm => eng e && f4 a && f4 b && f4 u && u18 imm
  | .addiS e a b u imm => eng e && f4 a && f4 b && f4 u && u18 imm
  | .andi e a b u imm => eng e && f4 a && f4 b && f4 u && u18 imm
  | .ori e a b u imm => eng e && f4 a && f4 b && f4 u && u18 imm
  | .xori e a b u imm => eng e && f4 a && f4 b && f4 u && u18 imm
  | .cmpi e a u imm => eng e && f4 a && u8 u && u18 imm
  | .b e cond u disp => eng e && f4 cond && u8 u && u18 disp
  | .call e a u disp => eng e && f4 a && u8 u && u18 disp
  | .dbnz e a u disp => eng e && f4 a && u8 u && u18 disp
  | .unassignedOpcode e _ => eng e
  | .longOpLanding e => eng e
  | .stcDecision e _ => eng e
  | .exceptionEntry e => eng e
  | .budgetExhausted e => eng e
  | .deadlineReached k => ctxNo k
  | .reservationExpiry e => eng e
  | .machineCheckHoldTimeout e => eng e
  | .ireqWrite ag e _ => agent ag && eng e
  | .storeDrain e idx => eng e && decide (idx < 8)
  | .storeAcknowledged e idx => eng e && decide (idx < 8)
  | .storeNoAnswer e idx => eng e && decide (idx < 8)
  | .commitBegins e _ => eng e
  | .commitPoint e _ => eng e
  | .stealSearch e _ => eng e
  | .resumedEntryClaimable k => ctxNo k
  | .workWaitTimeout e => eng e
  | .microwordRewrite e _ => eng e
  | .cstoreScrub e addr => eng e && decide (addr < 2304)
  | .collarMismatch e => eng e
  | .engineSilent e => eng e
  | .engineFailureRecovery e => eng e
  | .clusterDomainLost c => clu c
  | .engineAutoRestore e _ => eng e
  | .lostLineRewrite line ws => lineNo line && decide (ws.length = 8)
  | .descriptorLineRewrite line => lineNo line
  | .admissionRerun => true
  | .shedResourcesFree t => ten t
  | .rds e line => eng e && lineNo line
  | .rdx e line => eng e && lineNo line
  | .upg e line => eng e && lineNo line
  | .modI e line => eng e && lineNo line
  | .wbk e line => eng e && lineNo line
  | .rdc e line => eng e && lineNo line
  | .wrt e line => eng e && lineNo line
  | .watch e line kind => eng e && lineNo line && decide (kind < 5)
  | .lock e h => eng e && clu h
  | .publish e h => eng e && clu h
  | .discard k h => ctxNo k && clu h
  | .rdo ag line => agent ag && lineNo line
  | .wrl ag line ws => agent ag && lineNo line && decide (ws.length = 8)
  | .wrm ag line en ws => agent ag && lineNo line && decide (en < 2 ^ 32) && decide (ws.length = 8)
  | .dataM ag line _ => agent ag && lineNo line
  | .ack ag line _ => agent ag && lineNo line
  | .nak ag line => agent ag && lineNo line
  | .nakRetry ag line => agent ag && lineNo line
  | .fail ag line _ => agent ag && lineNo line
  | .inv e line => eng e && lineNo line
  | .invApply e => eng e
  | .fwds e line => eng e && lineNo line
  | .fwdx e line => eng e && lineNo line
  | .rcl e line => eng e && lineNo line
  | .rsvl e line => eng e && lineNo line
  | .iack c line => clu c && lineNo line
  | .fdata e line => eng e && lineNo line
  | .fnone e line => eng e && lineNo line
  | .memoryScrub _ => true
  | .burstUnanswered ch => decide (ch < 4)
  | .interfaceLost ch => decide (ch < 4)
  | .channelErrorRate sub => decide (sub < 8)
  | .memoryChannelRetirement ch => decide (ch < 4)
  | .boundaryStaging k => ctxNo k
  | .releaseEvent _ => true
  | .overflowMove e => eng e
  | .contextRecordWrite ag k i _ => agent ag && ctxNo k && decide (i < 32)
  | .tenantRecordWrite ag off _ => agent ag && tenantWord off
  | .rsvcfgWrite ag _ => agent ag
  | .pctlClear ag e _ => agent ag && eng e
  | .readClear ag off _ => agent ag && decide (off < 0o100000000)
  | .registerWrite ag off _ => agent ag && decide (off < 0o100000000)
  | .mailboxDoorbell ag src _ => agent ag && mbox src
  | .health src msg => msgWf 1 src msg
  | .journalRead src msg => msgWf 2 src msg
  | .admissionQuery src msg => msgWf 3 src msg
  | .noticeRead src msg => msgWf 4 src msg
  | .recordRead src msg => msgWf 5 src msg
  | .tenantCreate src msg => msgWf 0o20 src msg
  | .tenantRetire src msg => msgWf 0o21 src msg
  | .tenantRetireComplete t => ten t
  | .tenantSet src msg => msgWf 0o22 src msg
  | .tenantSeal src msg => msgWf 0o23 src msg
  | .tenantUnseal src msg => msgWf 0o24 src msg
  | .segmentAllocate src msg => msgWf 0o40 src msg
  | .segmentFree src msg => msgWf 0o41 src msg
  | .segmentResize src msg => msgWf 0o42 src msg
  | .contextCreate src msg => msgWf 0o60 src msg
  | .contextSet src msg => msgWf 0o61 src msg
  | .contextArm src msg => msgWf 0o62 src msg
  | .contextDisarm src msg => msgWf 0o63 src msg
  | .contextRetire src msg => msgWf 0o64 src msg
  | .bind src msg => msgWf 0o65 src msg
  | .unbind src msg => msgWf 0o66 src msg
  | .sessionInstall src msg => msgWf 0o100 src msg
  | .sessionRetire src msg => msgWf 0o101 src msg
  | .keyInstall src msg => msgWf 0o102 src msg
  | .keySelect src msg => msgWf 0o103 src msg
  | .portSet src msg => msgWf 0o104 src msg
  | .streamSet src msg => msgWf 0o105 src msg
  | .timeSet src msg => msgWf 0o106 src msg
  | .channelBind src msg => msgWf 0o120 src msg
  | .channelUnbind src msg => msgWf 0o121 src msg
  | .firmwareStage src msg => msgWf 0o140 src msg
  | .firmwareStageComplete kind target => decide (kind < 8) && decide (target < 256)
  | .firmwareActivate src msg => msgWf 0o141 src msg
  | .firmwareAbandon src msg => msgWf 0o142 src msg
  | .unitRetire src msg => msgWf 0o160 src msg
  | .unitRestore src msg => msgWf 0o161 src msg
  | .unitRestoreComplete ukind unit _ => decide (ukind < 7) && decide (unit < units ukind)
  | .groupsSet src msg => msgWf 0o162 src msg
  | .powerPolicy src msg => msgWf 0o163 src msg
  | .pairing src msg => msgWf 0o164 src msg
  | .witnessGrant src msg => msgWf 0o165 src msg
  | .debugGrant src msg => msgWf 0o166 src msg
  | .debugRevoke src msg => msgWf 0o167 src msg
  | .platformSet src msg => msgWf 0o170 src msg
  | .storeRebase => true
  | .mpHeartbeatLost => true
  | .customerSwitchTime => true
  | .vendorUpdateEngine e => eng e
  | .mantleEngineSwitch e => eng e
  | .replacementComplete kind entry => decide (kind < 8) && decide (entry < 16)
  | .moverArm ag c n _ => agent ag && clu c && decide (n < 16)
  | .transferStart c => clu c
  | .transferEnd c => clu c
  | .moverAbort ag c n => agent ag && clu c && decide (n < 16)
  | .shadowDisarm ag c n => agent ag && clu c && decide (n < 16)
  | .moverRequestTimeout c => clu c
  | .moverFailure c => clu c
  | .frameReceived p _ => port p
  | .eliminationResetTimeout h => decide (h < 1024)
  | .slowPathFrame p => port p
  | .linkUp p => port p
  | .linkDown p => port p
  | .frameTransmit p => port p
  | .preemptionVerify p _ => port p
  | .gateEntryAdvance stream i => gateNo stream i
  | .gateChangeArm ag stream i _ => agent ag && gateNo stream i
  | .gateChangeTime stream i => gateNo stream i
  | .deviceTimeStep ag _ _ => agent ag
  | .deviceTimeRate ag _ => agent ag
  | .gptpFrameReceived p => port p
  | .gptpSyncSend => true
  | .gptpMasterLost => true
  | .septegPublish => true
  | .septegRead => true
  | .septegWrite => true
  | .septegMailbox => true
  | .mailboxResponse ses => session ses
  | .septegTime => true
  | .septegHeartbeat => true
  | .heartbeatSend ses => session ses
  | .sessionDown ses => session ses
  | .outputPublish k => ctxNo k
  | .pairsync => true
  | .pairsyncAck => true
  | .pairsyncRetransmit => true
  | .epochMarker => true
  | .resynchronisation => true
  | .arbInPattern _ => true
  | .arbInAbsent => true
  | .switchoverTime => true
  | .deviceFailure _ => true
  | .deviceRestart => true
  | .watchdogExpiry => true
  | .supplyFault _ _ => true
  | .tjUpdate _ => true
  | .refInputLost _ => true
  | .refInputUsable _ => true
  | .refHoldTimeout => true
  | .powerOnReset => true
  | .deviceReset => true
  | .coldStart _ => true
  | .memoryInitComplete cap => decide (cap < 8)
  | .recoveryAnnounce => true
  | .recoveryData _ _ _ => true
  | .recoveryInstall _ _ => true
  | .recoverySenderTimeout => true
  | .lkwLock ag i => agent ag && decide (i < 16)
  | .lkwRelease ag i => agent ag && decide (i < 16)
  | .programOwnerSlot ag slot => agent ag && decide (slot < 4)
  | .seal ag => agent ag
  | .openI ag => agent ag
  | .pearlExit e => eng e
  | .slateEntry c => clu c
  | .slateExit c => clu c
  | .sableEntry => true
  | .sableWake => true
  | .debugAttach => true
  | .debugReset => true
  | .sample => true
  | .preload => true
  | .extest => true
  | .leaveExtest => true
  | .bypass => true
  | .debugReadWord space eng addr => decide (space < 4) && decide (eng < 256) && decide (addr < 2 ^ 35)
  | .debugWriteWord space eng addr _ => decide (space < 4) && decide (eng < 256) && decide (addr < 2 ^ 35)
  | .debugAccessDone _ => true
  | .debugHaltRequest g => eng g
  | .debugRelease g => eng g
  | .haltTaken e => eng e
  | .stopAll => true
  | .stopAllResume => true
  | .grantExpiry => true
  | .seginvComplete e _ => eng e
  | .controlWindowLoadAnswer e _ => eng e
  | .paddedStallEnd e => eng e
  | .nearStoreScrub e addr => eng e && decide (addr < 32768)
  | .septegWriteUnanswered => true
  | .welanaSwitchTime => true
  | .recoveryLoaderReset => true
  | .standbySyncLost => true
  | .standbyReferenceInputLost _ => true
  | .peerDelayMeasurement p _ => port p

end Sys2Proof
end

