-- ==== Sys2Proof/Decode.lean ====
section
/-! DEFINITION. The words of the opcode table: no row of spec/opcode_table.json gives its command any bits, so no word
spells a command. And the encoding of the engines' instructions that the spec gives (R126 to R132, R164, R167): the parcels
of an instruction, and the instruction that parcels spell. A parcel is a number of 18 bits. -/

namespace Sys2Proof

/-- The command that a word of `nbits` bits spells by the table's bits: none, as the table gives no row any. -/
def decodeTableWord (_nbits _w : Nat) : Option Instr := none

/-! ### Fields of a parcel (R126) -/

/-- Bits 0 to 9 of the first parcel: a short opcode. -/
def Parcel.opcode (p : Nat) : Nat := p / 256

/-- Bits 0 to 5: the major (R127). -/
def Parcel.major (p : Nat) : Nat := p / 4096

/-- Bits 10 to 13, 14 to 17, 10 to 17 and 6 to 9. -/
def Parcel.f10 (p : Nat) : Nat := p / 16 % 16
def Parcel.f14 (p : Nat) : Nat := p % 16
def Parcel.low8 (p : Nat) : Nat := p % 256
def Parcel.f6 (p : Nat) : Nat := p / 256 % 16

/-- Bit 0 alone sets the length (R127): whether a second parcel follows. -/
def Parcel.long (p : Nat) : Bool := decide (2 ^ 17 ≤ p)

/-! ### Encoding -/

def Parcel.short (o a b : Nat) : List Nat := [o * 256 + a * 16 + b]
def Parcel.plain (o u : Nat) : List Nat := [o * 256 + u]
def Parcel.shortImm (m a imm : Nat) : List Nat := [m * 4096 + a * 256 + imm]
def Parcel.two (m a b c d : Nat) : List Nat := [m * 4096 + a * 256 + b * 16 + c, d]
def Parcel.two8 (m a u d : Nat) : List Nat := [m * 4096 + a * 256 + u, d]

/-- The parcels of an instruction (R126, R131, R132); nothing for a command that is no instruction of an engine, nor for
UNASSIGNED_OPCODE, which many parcels spell. -/
def encodeParcels : Instr → List Nat
  | .nop _ u => Parcel.plain 0o0000 u
  | .csync _ u => Parcel.plain 0o0001 u
  | .drain _ u => Parcel.plain 0o0002 u
  | .fenceL _ u => Parcel.plain 0o0003 u
  | .fenceS _ u => Parcel.plain 0o0004 u
  | .fenceLS _ u => Parcel.plain 0o0005 u
  | .retx _ u => Parcel.plain 0o0006 u
  | .brk _ u => Parcel.plain 0o0007 u
  | .commit _ u => Parcel.plain 0o0010 u
  | .yieldI _ u => Parcel.plain 0o0011 u
  | .steal _ u => Parcel.plain 0o0012 u
  | .mov _ a b => Parcel.short 0o0020 a b
  | .add _ a b => Parcel.short 0o0021 a b
  | .sub _ a b => Parcel.short 0o0022 a b
  | .adc _ a b => Parcel.short 0o0023 a b
  | .sbc _ a b => Parcel.short 0o0024 a b
  | .and _ a b => Parcel.short 0o0025 a b
  | .or _ a b => Parcel.short 0o0026 a b
  | .xor _ a b => Parcel.short 0o0027 a b
  | .andn _ a b => Parcel.short 0o0030 a b
  | .not _ a b => Parcel.short 0o0031 a b
  | .neg _ a b => Parcel.short 0o0032 a b
  | .cmp _ a b => Parcel.short 0o0033 a b
  | .tst _ a b => Parcel.short 0o0034 a b
  | .shl _ a b => Parcel.short 0o0035 a b
  | .shr _ a b => Parcel.short 0o0036 a b
  | .sar _ a b => Parcel.short 0o0037 a b
  | .rol _ a b => Parcel.short 0o0040 a b
  | .addS _ a b => Parcel.short 0o0041 a b
  | .subS _ a b => Parcel.short 0o0042 a b
  | .negS _ a b => Parcel.short 0o0043 a b
  | .abs _ a b => Parcel.short 0o0044 a b
  | .absS _ a b => Parcel.short 0o0045 a b
  | .min _ a b => Parcel.short 0o0046 a b
  | .max _ a b => Parcel.short 0o0047 a b
  | .minu _ a b => Parcel.short 0o0050 a b
  | .maxu _ a b => Parcel.short 0o0051 a b
  | .pack _ a b => Parcel.short 0o0052 a b
  | .unpk _ a b => Parcel.short 0o0053 a b
  | .clz _ a b => Parcel.short 0o0054 a b
  | .rdt _ a b => Parcel.short 0o0055 a b
  | .mul _ a b => Parcel.short 0o0060 a b
  | .mulu _ a b => Parcel.short 0o0061 a b
  | .mac _ a b => Parcel.short 0o0062 a b
  | .macS _ a b => Parcel.short 0o0063 a b
  | .div _ a b => Parcel.short 0o0070 a b
  | .divu _ a b => Parcel.short 0o0071 a b
  | .rem _ a b => Parcel.short 0o0072 a b
  | .remu _ a b => Parcel.short 0o0073 a b
  | .fadd _ a b => Parcel.short 0o0100 a b
  | .fsub _ a b => Parcel.short 0o0101 a b
  | .fmul _ a b => Parcel.short 0o0102 a b
  | .fcmp _ a b => Parcel.short 0o0103 a b
  | .fneg _ a b => Parcel.short 0o0104 a b
  | .fabs _ a b => Parcel.short 0o0105 a b
  | .fmin _ a b => Parcel.short 0o0106 a b
  | .fmax _ a b => Parcel.short 0o0107 a b
  | .flt _ a b => Parcel.short 0o0110 a b
  | .fix _ a b => Parcel.short 0o0111 a b
  | .fdiv _ a b => Parcel.short 0o0112 a b
  | .fsqrt _ a b => Parcel.short 0o0113 a b
  | .faddD _ a b => Parcel.short 0o0120 a b
  | .fsubD _ a b => Parcel.short 0o0121 a b
  | .fmulD _ a b => Parcel.short 0o0122 a b
  | .fcmpD _ a b => Parcel.short 0o0123 a b
  | .fnegD _ a b => Parcel.short 0o0124 a b
  | .fabsD _ a b => Parcel.short 0o0125 a b
  | .fltD _ a b => Parcel.short 0o0130 a b
  | .fixD _ a b => Parcel.short 0o0131 a b
  | .fdivD _ a b => Parcel.short 0o0132 a b
  | .fsqrtD _ a b => Parcel.short 0o0133 a b
  | .fcvtDF _ a b => Parcel.short 0o0134 a b
  | .fcvtFD _ a b => Parcel.short 0o0135 a b
  | .jr _ a b => Parcel.short 0o0140 a b
  | .callr _ a b => Parcel.short 0o0141 a b
  | .fjmp _ a b => Parcel.short 0o0142 a b
  | .fcall _ a b => Parcel.short 0o0143 a b
  | .fret _ a b => Parcel.short 0o0144 a b
  | .segld _ a b => Parcel.short 0o0145 a b
  | .seginv _ a b => Parcel.short 0o0146 a b
  | .cust _ n a b => Parcel.short (0o0200 + n) a b
  | .movq _ a imm => Parcel.shortImm 0o20 a imm
  | .addq _ a imm => Parcel.shortImm 0o21 a imm
  | .cmpq _ a imm => Parcel.shortImm 0o22 a imm
  | .shlq _ a imm => Parcel.shortImm 0o23 a imm
  | .shrq _ a imm => Parcel.shortImm 0o24 a imm
  | .sarq _ a imm => Parcel.shortImm 0o25 a imm
  | .rolq _ a imm => Parcel.shortImm 0o26 a imm
  | .extp _ a imm => Parcel.shortImm 0o27 a imm
  | .rpt _ a imm _ => Parcel.shortImm 0o30 a imm
  | .rptu _ a imm _ => Parcel.shortImm 0o31 a imm
  | .mfr _ a imm => Parcel.shortImm 0o32 a imm
  | .mtr _ a imm => Parcel.shortImm 0o33 a imm
  | .svc _ a imm => Parcel.shortImm 0o34 a imm
  | .mvc _ a imm => Parcel.shortImm 0o35 a imm
  | .tstb _ a imm => Parcel.shortImm 0o36 a imm
  | .ld _ a b c d => Parcel.two 0o40 a b c d
  | .st _ a b c d => Parcel.two 0o41 a b c d
  | .ldd _ a b c d => Parcel.two 0o42 a b c d
  | .std _ a b c d => Parcel.two 0o43 a b c d
  | .ldr _ a b c d => Parcel.two 0o44 a b c d
  | .stc _ a b c d => Parcel.two 0o45 a b c d
  | .ldrD _ a b c d => Parcel.two 0o46 a b c d
  | .stcD _ a b c d => Parcel.two 0o47 a b c d
  | .ldi _ a u d => Parcel.two8 0o50 a u d
  | .lui _ a u d => Parcel.two8 0o51 a u d
  | .addi _ a b c d => Parcel.two 0o52 a b c d
  | .andi _ a b c d => Parcel.two 0o53 a b c d
  | .ori _ a b c d => Parcel.two 0o54 a b c d
  | .xori _ a b c d => Parcel.two 0o55 a b c d
  | .cmpi _ a u d => Parcel.two8 0o56 a u d
  | .addiS _ a b c d => Parcel.two 0o57 a b c d
  | .b _ a u d => Parcel.two8 0o60 a u d
  | .call _ a u d => Parcel.two8 0o61 a u d
  | .dbnz _ a u d => Parcel.two8 0o62 a u d
  | _ => []

/-! ### Decoding -/

/-- A one-parcel instruction of the short format (R131) at engine e. -/
def decodeShort (e p : Nat) : Instr :=
  let u := Parcel.low8 p
  let a := Parcel.f10 p
  let b := Parcel.f14 p
  match Parcel.opcode p with
  | 0o0000 => .nop e u
  | 0o0001 => .csync e u
  | 0o0002 => .drain e u
  | 0o0003 => .fenceL e u
  | 0o0004 => .fenceS e u
  | 0o0005 => .fenceLS e u
  | 0o0006 => .retx e u
  | 0o0007 => .brk e u
  | 0o0010 => .commit e u
  | 0o0011 => .yieldI e u
  | 0o0012 => .steal e u
  | 0o0020 => .mov e a b
  | 0o0021 => .add e a b
  | 0o0022 => .sub e a b
  | 0o0023 => .adc e a b
  | 0o0024 => .sbc e a b
  | 0o0025 => .and e a b
  | 0o0026 => .or e a b
  | 0o0027 => .xor e a b
  | 0o0030 => .andn e a b
  | 0o0031 => .not e a b
  | 0o0032 => .neg e a b
  | 0o0033 => .cmp e a b
  | 0o0034 => .tst e a b
  | 0o0035 => .shl e a b
  | 0o0036 => .shr e a b
  | 0o0037 => .sar e a b
  | 0o0040 => .rol e a b
  | 0o0041 => .addS e a b
  | 0o0042 => .subS e a b
  | 0o0043 => .negS e a b
  | 0o0044 => .abs e a b
  | 0o0045 => .absS e a b
  | 0o0046 => .min e a b
  | 0o0047 => .max e a b
  | 0o0050 => .minu e a b
  | 0o0051 => .maxu e a b
  | 0o0052 => .pack e a b
  | 0o0053 => .unpk e a b
  | 0o0054 => .clz e a b
  | 0o0055 => .rdt e a b
  | 0o0060 => .mul e a b
  | 0o0061 => .mulu e a b
  | 0o0062 => .mac e a b
  | 0o0063 => .macS e a b
  | 0o0070 => .div e a b
  | 0o0071 => .divu e a b
  | 0o0072 => .rem e a b
  | 0o0073 => .remu e a b
  | 0o0100 => .fadd e a b
  | 0o0101 => .fsub e a b
  | 0o0102 => .fmul e a b
  | 0o0103 => .fcmp e a b
  | 0o0104 => .fneg e a b
  | 0o0105 => .fabs e a b
  | 0o0106 => .fmin e a b
  | 0o0107 => .fmax e a b
  | 0o0110 => .flt e a b
  | 0o0111 => .fix e a b
  | 0o0112 => .fdiv e a b
  | 0o0113 => .fsqrt e a b
  | 0o0120 => .faddD e a b
  | 0o0121 => .fsubD e a b
  | 0o0122 => .fmulD e a b
  | 0o0123 => .fcmpD e a b
  | 0o0124 => .fnegD e a b
  | 0o0125 => .fabsD e a b
  | 0o0130 => .fltD e a b
  | 0o0131 => .fixD e a b
  | 0o0132 => .fdivD e a b
  | 0o0133 => .fsqrtD e a b
  | 0o0134 => .fcvtDF e a b
  | 0o0135 => .fcvtFD e a b
  | 0o0140 => .jr e a b
  | 0o0141 => .callr e a b
  | 0o0142 => .fjmp e a b
  | 0o0143 => .fcall e a b
  | 0o0144 => .fret e a b
  | 0o0145 => .segld e a b
  | 0o0146 => .seginv e a b
  | o => if 0o0200 ≤ o ∧ o ≤ 0o0237 then .cust e (o - 0o0200) a b else .unassignedOpcode e false

/-- A one-parcel instruction of the short-immediate format (R132); `nxt` is what follows a repeat. -/
def decodeImm (e : Nat) (nxt : RepClass) (p : Nat) : Instr :=
  let a := Parcel.f6 p
  let imm := Parcel.low8 p
  match Parcel.major p with
  | 0o20 => .movq e a imm
  | 0o21 => .addq e a imm
  | 0o22 => .cmpq e a imm
  | 0o23 => .shlq e a imm
  | 0o24 => .shrq e a imm
  | 0o25 => .sarq e a imm
  | 0o26 => .rolq e a imm
  | 0o27 => .extp e a imm
  | 0o30 => .rpt e a imm nxt
  | 0o31 => .rptu e a imm nxt
  | 0o32 => .mfr e a imm
  | 0o33 => .mtr e a imm
  | 0o34 => .svc e a imm
  | 0o35 => .mvc e a imm
  | 0o36 => .tstb e a imm
  | _ => .unassignedOpcode e false

/-- A two-parcel instruction (R132); an unassigned long major is still two parcels long (R129). -/
def decodeLong (e p q : Nat) : Instr :=
  let a := Parcel.f6 p
  let b := Parcel.f10 p
  let c := Parcel.f14 p
  let u := Parcel.low8 p
  match Parcel.major p with
  | 0o40 => .ld e a b c q
  | 0o41 => .st e a b c q
  | 0o42 => .ldd e a b c q
  | 0o43 => .std e a b c q
  | 0o44 => .ldr e a b c q
  | 0o45 => .stc e a b c q
  | 0o46 => .ldrD e a b c q
  | 0o47 => .stcD e a b c q
  | 0o50 => .ldi e a u q
  | 0o51 => .lui e a u q
  | 0o52 => .addi e a b c q
  | 0o53 => .andi e a b c q
  | 0o54 => .ori e a b c q
  | 0o55 => .xori e a b c q
  | 0o56 => .cmpi e a u q
  | 0o57 => .addiS e a b c q
  | 0o60 => .b e a u q
  | 0o61 => .call e a u q
  | 0o62 => .dbnz e a u q
  | _ => .unassignedOpcode e true

/-- The instruction at engine e that two parcels of 18 bits spell; the second counts only for a long instruction. -/
def decodeParcels (e : Nat) (nxt : RepClass) (p q : Nat) : Instr :=
  if Parcel.long p then decodeLong e p q
  else if Parcel.major p < 0o20 then decodeShort e p
  else decodeImm e nxt p

/-- What an instruction is to a repeat before it (R164, R167). -/
def repClass : Instr → RepClass
  | .ld _ a b _ _ => if a = b then .overwritesBase else .repeatable
  | .ldd _ a b _ _ => if a = b ∨ a + 1 = b then .overwritesBase else .repeatable
  | .nop .. => .repeatable
  | .mov .. => .repeatable
  | .add .. => .repeatable
  | .sub .. => .repeatable
  | .adc .. => .repeatable
  | .sbc .. => .repeatable
  | .and .. => .repeatable
  | .or .. => .repeatable
  | .xor .. => .repeatable
  | .andn .. => .repeatable
  | .not .. => .repeatable
  | .neg .. => .repeatable
  | .cmp .. => .repeatable
  | .tst .. => .repeatable
  | .shl .. => .repeatable
  | .shr .. => .repeatable
  | .sar .. => .repeatable
  | .rol .. => .repeatable
  | .addS .. => .repeatable
  | .subS .. => .repeatable
  | .negS .. => .repeatable
  | .abs .. => .repeatable
  | .absS .. => .repeatable
  | .min .. => .repeatable
  | .max .. => .repeatable
  | .minu .. => .repeatable
  | .maxu .. => .repeatable
  | .pack .. => .repeatable
  | .unpk .. => .repeatable
  | .clz .. => .repeatable
  | .mul .. => .repeatable
  | .mulu .. => .repeatable
  | .mac .. => .repeatable
  | .macS .. => .repeatable
  | .movq .. => .repeatable
  | .addq .. => .repeatable
  | .cmpq .. => .repeatable
  | .shlq .. => .repeatable
  | .shrq .. => .repeatable
  | .sarq .. => .repeatable
  | .rolq .. => .repeatable
  | .tstb .. => .repeatable
  | .ldi .. => .repeatable
  | .lui .. => .repeatable
  | .addi .. => .repeatable
  | .addiS .. => .repeatable
  | .andi .. => .repeatable
  | .ori .. => .repeatable
  | .xori .. => .repeatable
  | .cmpi .. => .repeatable
  | .extp .. => .repeatable
  | .st .. => .repeatable
  | .std .. => .repeatable
  | .fadd .. => .repeatable
  | .fsub .. => .repeatable
  | .fmul .. => .repeatable
  | .fcmp .. => .repeatable
  | .fneg .. => .repeatable
  | .fabs .. => .repeatable
  | .fmin .. => .repeatable
  | .fmax .. => .repeatable
  | .flt .. => .repeatable
  | .fix .. => .repeatable
  | .faddD .. => .repeatable
  | .fsubD .. => .repeatable
  | .fmulD .. => .repeatable
  | .fcmpD .. => .repeatable
  | .fnegD .. => .repeatable
  | .fabsD .. => .repeatable
  | _ => .other

/-- The engine of an instruction. -/
def engineOf : Instr → Nat
  | .nop e .. => e
  | .csync e .. => e
  | .drain e .. => e
  | .fenceL e .. => e
  | .fenceS e .. => e
  | .fenceLS e .. => e
  | .retx e .. => e
  | .brk e .. => e
  | .commit e .. => e
  | .yieldI e .. => e
  | .steal e .. => e
  | .mov e .. => e
  | .add e .. => e
  | .sub e .. => e
  | .adc e .. => e
  | .sbc e .. => e
  | .and e .. => e
  | .or e .. => e
  | .xor e .. => e
  | .andn e .. => e
  | .not e .. => e
  | .neg e .. => e
  | .cmp e .. => e
  | .tst e .. => e
  | .shl e .. => e
  | .shr e .. => e
  | .sar e .. => e
  | .rol e .. => e
  | .addS e .. => e
  | .subS e .. => e
  | .negS e .. => e
  | .abs e .. => e
  | .absS e .. => e
  | .min e .. => e
  | .max e .. => e
  | .minu e .. => e
  | .maxu e .. => e
  | .pack e .. => e
  | .unpk e .. => e
  | .clz e .. => e
  | .rdt e .. => e
  | .mul e .. => e
  | .mulu e .. => e
  | .mac e .. => e
  | .macS e .. => e
  | .div e .. => e
  | .divu e .. => e
  | .rem e .. => e
  | .remu e .. => e
  | .fadd e .. => e
  | .fsub e .. => e
  | .fmul e .. => e
  | .fcmp e .. => e
  | .fneg e .. => e
  | .fabs e .. => e
  | .fmin e .. => e
  | .fmax e .. => e
  | .flt e .. => e
  | .fix e .. => e
  | .fdiv e .. => e
  | .fsqrt e .. => e
  | .faddD e .. => e
  | .fsubD e .. => e
  | .fmulD e .. => e
  | .fcmpD e .. => e
  | .fnegD e .. => e
  | .fabsD e .. => e
  | .fltD e .. => e
  | .fixD e .. => e
  | .fdivD e .. => e
  | .fsqrtD e .. => e
  | .fcvtDF e .. => e
  | .fcvtFD e .. => e
  | .jr e .. => e
  | .callr e .. => e
  | .fjmp e .. => e
  | .fcall e .. => e
  | .fret e .. => e
  | .segld e .. => e
  | .seginv e .. => e
  | .cust e .. => e
  | .movq e .. => e
  | .addq e .. => e
  | .cmpq e .. => e
  | .shlq e .. => e
  | .shrq e .. => e
  | .sarq e .. => e
  | .rolq e .. => e
  | .extp e .. => e
  | .rpt e .. => e
  | .rptu e .. => e
  | .mfr e .. => e
  | .mtr e .. => e
  | .svc e .. => e
  | .mvc e .. => e
  | .tstb e .. => e
  | .ld e .. => e
  | .st e .. => e
  | .ldd e .. => e
  | .std e .. => e
  | .ldr e .. => e
  | .stc e .. => e
  | .ldrD e .. => e
  | .stcD e .. => e
  | .ldi e .. => e
  | .lui e .. => e
  | .addi e .. => e
  | .andi e .. => e
  | .ori e .. => e
  | .xori e .. => e
  | .cmpi e .. => e
  | .addiS e .. => e
  | .b e .. => e
  | .call e .. => e
  | .dbnz e .. => e
  | .unassignedOpcode e _ => e
  | _ => 0

/-- What follows a repeat, as its command has it; any other instruction has no such operand. -/
def nextOf : Instr → RepClass
  | .rpt _ _ _ x => x
  | .rptu _ _ _ x => x
  | _ => .other

end Sys2Proof
end

