-- ==== Sys2Proof/Config.lean ====
section
/-! DEFINITION. What the spec leaves open: free values, as constants without a body. A fresh value each time is such a
constant applied to the counter `freeCtr` of the state. Each has its log entry. -/

namespace Sys2Proof

/-- Measured cycles of a stall that no event row reports (R180, R210), before its bound is applied: log entry 9. -/
opaque Config.freeStall : Nat → Nat

/-- The value of a micro-temporary at an instruction's first microword (R251): log entry 12. -/
opaque Config.freeTemp : Nat → Nat → Word

/-- A flag that a microcode operation does not define (R252), for the counter and the flag's bit: log entry 12. -/
opaque Config.freeFlag : Nat → Nat → Bool

/-- A word of a frame that the near store cannot correct, as a return reads it (R230), for the counter and the word of the frame:
log entry 61. -/
opaque Config.freeNear : Nat → Nat → Word

/-- MACBASE and SERIAL of the OTP (R551), set at manufacture, by their three stored copies: log entry 6. -/
opaque Config.macBase : Nat → Nat
opaque Config.serial : Nat → Nat

/-- Whether RS-FEC alignment is still locked when a link goes down for a reason that the LINK_DOWN row does not name (R411, R412):
log entry 80. -/
opaque Config.freeLock : Nat → Bool

/-- The rate that Welana's servo writes to DTRATE (R439), before its range is applied: log entry 33. -/
opaque Config.freeRate : Nat → Int

/-- Verification under ECDSA P-384 and ML-DSA-87 (R557), standards that the spec only names: public key, signed octets,
signature. Log entry 36. -/
opaque Config.ecdsaOk : List Octet → List Octet → List Octet → Bool
opaque Config.mldsaOk : List Octet → List Octet → List Octet → Bool

/-- VKEY0 to VKEY3 and DUS of the OTP (R551), set at manufacture, by their three stored copies: log entry 6. -/
opaque Config.vkey : Nat → Nat → List Octet
opaque Config.dus : Nat → List Octet

/-- Where microword k of vendor routine r lies in the vendor region (R245, R258): log entry 44. -/

opaque Config.vendorAddr : Nat → Nat → Nat
/-- Which of its three capacities the attached flash has (R553): log entry 7. -/
opaque Config.flashKind : Nat

/-- Which of several numbers or indices that suit Welana takes where the spec leaves it the choice, as a function of the
candidates; the place it tries first for so many words beside so much used memory; and by how many boundaries a switch time
exceeds its least value: log entry 38. -/
opaque Config.freeChoice : List Nat → Nat
opaque Config.freePlace : List (Nat × Nat) → Nat → Nat
opaque Config.freeLead : Nat → Nat

end Sys2Proof
end

