-- ==== Sys2Proof/Machine/Bits.lean ====
section
/-! DEFINITION. Bit fields, sign extension, doubles, lanes and octets of words (R4, R5, R33 to R37, R452). -/

namespace Sys2Proof.Machine

/-- A word from a natural number, modulo 2^36 (R136 wrap). -/
def mkW (n : Nat) : Word := BitVec.ofNat 36 n

/-- A word from an integer, modulo 2^36. -/
def mkZ (z : Int) : Word := BitVec.ofInt 36 z

/-- The word with ones in bits a to b (R5). -/
def maskW (a b : Nat) : Word := mkW ((2 ^ (b - a + 1) - 1) * 2 ^ (35 - b))

/-- Field x[a..b], bit a the most significant (R5). -/
def fld (w : Word) (a b : Nat) : Nat := w.toNat / 2 ^ (35 - b) % 2 ^ (b - a + 1)

/-- The value v placed in bits a to b of a word that is zero elsewhere. -/
def place (a b v : Nat) : Word := mkW (v % 2 ^ (b - a + 1) * 2 ^ (35 - b))

/-- w with field x[a..b] replaced by v. -/
def setFld (w : Word) (a b v : Nat) : Word := (w &&& ~~~ maskW a b) ||| place a b v

/-- Bit i, numbered from the most significant (R4). -/
def bit (w : Word) (i : Nat) : Bool := fld w i i == 1

/-- w with bit i set to b. -/
def setBit (w : Word) (i : Nat) (b : Bool) : Word := setFld w i i b.toNat

/-- A Boolean as the word 1 or 0 in bit i. -/
def bitAt (i : Nat) (b : Bool) : Word := place i i b.toNat

/-- w read as signed, -2^35 to 2^35 - 1 (R33). -/
def sgn (w : Word) : Int := w.toInt

/-- An n-bit field value read as two's complement (R130). -/
def sext (n v : Nat) : Int := if v < 2 ^ (n - 1) then (v : Int) else (v : Int) - 2 ^ n

/-- The 72-bit value of two words, the first more significant (R34). -/
def dbl (hi lo : Word) : Nat := hi.toNat * 2 ^ 36 + lo.toNat

/-- The first word of a 72-bit value. -/
def hiW (n : Nat) : Word := mkW (n / 2 ^ 36)

/-- The second word of a 72-bit value. -/
def loW (n : Nat) : Word := mkW n

/-- A 72-bit value read as signed. -/
def sgn72 (n : Nat) : Int := sext 72 (n % 2 ^ 72)

/-- Lane n of a word, 9 bits (R35). -/
def lane (w : Word) (n : Nat) : Nat := fld w (9 * n) (9 * n + 8)

/-- The octet of lane n: lane bits 1 to 8 (R36). -/
def laneOctet (w : Word) (n : Nat) : Octet := BitVec.ofNat 8 (lane w n % 256)

/-- w with an octet written into lane n, lane bit 0 zero (R36). -/
def setLane (w : Word) (n : Nat) (o : Octet) : Word := setFld w (9 * n) (9 * n + 8) o.toNat

/-- Four octets in lanes 0 to 3. -/
def lanes4 (o0 o1 o2 o3 : Octet) : Word :=
  mkW (o0.toNat * 2 ^ 27 + o1.toNat * 2 ^ 18 + o2.toNat * 2 ^ 9 + o3.toNat)

/-- The octets of words in lane form (R37). -/
def octetsOf (ws : List Word) : List Octet :=
  ws.flatMap fun w => [laneOctet w 0, laneOctet w 1, laneOctet w 2, laneOctet w 3]

/-- Words in lane form from octets (R37), the last filled with zero octets. -/
def lanesOf : List Octet → List Word
  | o0 :: o1 :: o2 :: o3 :: t => lanes4 o0 o1 o2 o3 :: lanesOf t
  | [o0, o1, o2] => [lanes4 o0 o1 o2 0]
  | [o0, o1] => [lanes4 o0 o1 0 0]
  | [o0] => [lanes4 o0 0 0 0]
  | [] => []

/-- A big-endian octet string as a number (R11). -/
def beNat (os : List Octet) : Nat := os.foldl (fun a o => a * 256 + o.toNat) 0

/-- The n octets of a number, most significant first (R11). -/
def beOctets : Nat → Nat → List Octet
  | 0, _ => []
  | n + 1, v => BitVec.ofNat 8 (v / 256 ^ n) :: beOctets n v

/-- The octets that carry N words: ceil(9N / 2) octets, four zero bits filling the last when N is odd (R452). -/
def packWords : List Word → List Octet
  | w0 :: w1 :: t => beOctets 9 (dbl w0 w1) ++ packWords t
  | [w0] => beOctets 5 (w0.toNat * 16)
  | [] => []

/-- The N words carried in octets under R452; fill bits are ignored. -/
def unpackWords : Nat → List Octet → List Word
  | 0, _ => []
  | 1, os => [mkW (beNat (os.take 5) / 16)]
  | n + 2, os =>
    let v := beNat (os.take 9)
    hiW v :: loW v :: unpackWords n (os.drop 9)

/-- The octets that N words take under R452. -/
def packedLen (n : Nat) : Nat := (9 * n + 1) / 2

/-- An octet, two octets as a number, and n octets from octet i of a string on. -/
def u8 (os : List Octet) (i : Nat) : Nat := (os.getD i 0).toNat
def u16 (os : List Octet) (i : Nat) : Nat := beNat ((os.drop i).take 2)
def cut (os : List Octet) (i n : Nat) : List Octet := (os.drop i).take n

def zeros (n : Nat) : List Octet := List.replicate n 0

/-- A saturating count field: one more, up to the bound. -/
def satInc (bound n : Nat) : Nat := if n < bound then n + 1 else bound

end Sys2Proof.Machine
end

