-- ==== Sys2Proof/Machine/State.lean ====
section
/-! DEFINITION. The state of the AX3612 as plain data: every register, buffer, queue, counter and mode that
spec/ gives the device, the queue of waiting commands, and the state right after reset.

Conventions. A sparse table (`Tbl`) is a list of (index, value) pairs with strictly rising indices that lists
no entry equal to what an unlisted index holds. All words of the control window (R62) lie in one such table,
`ctl`, keyed by their control-window offset; Machine/Regs.lean names each register and gives its reset value
and access. Times of device time are numbers of sixty-fourths of a nanosecond since device time zero (R434).
A mask over the words of a line has its bit `w` (least significant first) for word `w`. -/

namespace Sys2Proof.Machine

/-- A sparse table from indices to values. -/
abbrev Tbl (α : Type) := List (Nat × α)

/-! ## The engine -/

/-- A destination of a result (R107): a general register, a half of the product register, or ST. -/
inductive Dst where
  | w (n : Nat) | ph | pl | st
deriving DecidableEq, Repr

/-- The sub-units whose operations are long (R154). -/
inductive LongUnit where
  | none | divider | converter
deriving DecidableEq, Repr

/-- A result that has not landed (R107): at issue-clock cycle `at_` the destination `d` becomes
(d and not mask) or (val and mask) or orv. `fault` is the register field of a divide by zero, which becomes
due at the landing (R156, R197); its `mask` and `orv` are 0. -/
structure Pend where
  dst : Dst
  mask : Word
  val : Word
  orv : Word
  at_ : Nat
  unit : LongUnit
  fault : Option Nat
deriving DecidableEq, Repr

/-- A branch whose delay slot is next in OPEN mode (R110): its first parcel, its target when it is taken, the
fixed cycles that stay empty after the delay slot (R187), and for CALL and CALLR the link register with the
cycle at which the link lands (R161). -/
structure Slot where
  branch : Nat
  target : Option Nat
  bubble : Nat
  link : Option (Nat × Nat)
deriving DecidableEq, Repr

/-- A detected exception (R216, R222): vector, cause, FINFO.SEG, FOFF, the return point, whether the
saved ST holds DS (R238), whether its entry has begun (R226), the descriptors that missed the descriptor cache during the
entry (R227), and for a store-failure exception the number of records that it reports (R242). -/
structure Exc where
  vec : Nat
  cause : Nat
  seg : Nat
  off : Word
  ret : Nat
  ds : Bool
  begun : Bool := false
  missed : List (Nat × Nat) := []
  nrec : Nat := 0
deriving DecidableEq, Repr

/-- The architectural registers of R71 and the program counter. `d` holds D0 to D7, `dbg` numbers 60 to 66
(octal) by their number. -/
structure Regs where
  w : Tbl Word
  ph : Word
  pl : Word
  st : Word
  spc : Word
  cs : Word
  tid : Word
  ectl : Word
  sad : Word
  d : Tbl Word
  finfo : Word
  foff : Word
  dbg : Tbl Word
  dstat : Word
  pc : Nat
deriving DecidableEq, Repr

/-- The values of the controls of R115 that are in effect (R116). -/
structure Eff where
  d : Tbl Word
  open_ : Bool
  pred : Bool
  dbg : Tbl Word
deriving DecidableEq, Repr

/-- What a measured stall waits for (R180, R210). -/
inductive Wait where
  /-- a line of data, for a load, an STC, a descriptor read or microcode -/
  | line (l : Nat)
  /-- a line of instructions (R183) -/
  | fetch (l : Nat)
  /-- the line `l` of descriptor `i` of tenant `t` (R95), and FINFO.SEG should it be poisoned (R649) -/
  | descr (l t i seg : Nat)
  /-- the answer of a control-window block -/
  | ctl (off : Nat) (dbl : Bool)
  /-- free entries of the store buffer (R202) -/
  | buffer
  /-- a fence: every older store settled (R350) -/
  | fence
  /-- the drain step of COMMIT (R302) -/
  | drain
  /-- the lock acknowledgements of COMMIT, from these home slices -/
  | locks (hs : List Nat)
  /-- STEAL: the engine's outstanding stores (R288) -/
  | settle
  /-- completion of SEGINV for this tenant and index (R97) -/
  | seginv (t i : Nat)
  /-- the rewrite of a microword (R263) -/
  | micro (addr : Nat)
  /-- the line of an STC in E or M, then its decision (R654) -/
  | stcLine (l : Nat)
  /-- WATCH acceptances of the reservation (R340) -/
  | watches
  /-- queued invalidations before FENCE.L (R350): the number still to apply -/
  | invals (n : Nat)
  /-- the rest of a padded stall of a sealed tenant (R384), `n` cycles, counted under the counter `ctr`; the stall was for `was` -/
  | padded (n ctr : Nat) (was : Wait)
  /-- a microword of SEQ WAIT whose condition `c` is not true (R249) -/
  | cond (c : Nat)
deriving DecidableEq, Repr

/-- A measured stall: the instruction it holds and what it waits for. The instruction has had no effect and is
carried out when the stall ends (R180). `inEx` says that it has issued, so that it goes on in EX; else it is still to be
fetched and checked (R178, R183). -/
structure Stall where
  instr : Instr
  why : Wait
  inEx : Bool := true
deriving DecidableEq, Repr

/-- A granule of lines (R120): its first line and its number of lines. `near` is set for near-store lines. -/
structure Granule where
  tenant : Nat
  first : Nat
  size : Nat
  near : Bool
deriving DecidableEq, Repr

/-- The reservation (R120), the engine cycle of its LDR (R122), and the lines whose WATCH is awaited (R340). -/
structure Reserv where
  gran : Granule
  setAt : Nat
  awaited : List Nat
deriving DecidableEq, Repr

/-- A watched granule with its watch entry and the access of its STC (R301, R339). -/
structure WGran where
  idx : Nat
  gran : Granule
  seg : Nat
  off : Word
deriving DecidableEq, Repr

/-- A failure record (R242): cause, segment field and segment word offset. -/
structure FailRec where
  cause : Nat
  seg : Nat
  off : Word
deriving DecidableEq, Repr

/-- A deferred store of an activation (R299): control-window offset, the words, the access for reports, and its level. -/
structure Deferred where
  off : Nat
  ws : List Word
  seg : Nat
  soff : Word
  lvl : Nat
deriving DecidableEq, Repr

/-- A deferred store in the pool of R307, with its context. -/
structure PoolStore where
  ctx : Nat
  st : Deferred
deriving DecidableEq, Repr

/-- States of a line in an L1 data cache, other than invalid (R318). -/
inductive L1State where
  | s | e | m | t
deriving DecidableEq, Repr

/-- A line of an L1 data cache; `pois` marks the poisoned words (R46). -/
structure L1Line where
  line : Nat
  tenant : Nat
  st : L1State
  ws : List Word
  pois : Nat
deriving DecidableEq, Repr

/-- A line of an L1 instruction cache, or of the line buffer, with its poison mark (R181, R182, R46). -/
structure L1I where
  line : Nat
  ws : List Word
  pois : Bool
deriving DecidableEq, Repr

/-- The kinds of store that use the store buffer (R200, R201, R345). -/
inductive SbKind where
  | data | code | control
deriving DecidableEq, Repr

/-- A store-buffer entry (R200). For a control-window store (which never merges, R201) `line` holds the
control-window offset and the first one or two words hold the data. `act` and `ctx` say whether TID.ACT was 1
and for which context; `seg` and `soff` are the access of its first store. `unc` is set while the home keeps
the transaction open for a merge write (R647). `phase` is 0 before the entry begins to drain, 1 while its line or block is
requested, 2 while its words are written and the MOD is awaited, 3 when it is acknowledged (R345, R346); `due` is the
device time at which it is declared failed for want of an answer (R354); `retAt` is the issue-clock cycle at which the last
instruction that wrote into it retires (R206, R208); `stc` says that an STC wrote into it (R340). -/
structure SbEntry where
  line : Nat
  tenant : Nat
  kind : SbKind
  ws : List Word
  en : Nat
  openE : Bool
  phase : Nat
  due : Nat
  act : Bool
  ctx : Nat
  seg : Nat
  soff : Word
  unc : Bool
  /-- the level of the store -/
  lvl : Nat
  retAt : Nat
  stc : Bool := false
deriving DecidableEq, Repr

/-- Kinds of deque entry (R282). -/
inductive EntryKind where
  | fresh | resumed | rerun
deriving DecidableEq, Repr

/-- CARRY of a resumed entry (R282, R307). -/
structure Carry where
  fails : List FailRec
  grans : List WGran
  ndef : Nat
deriving DecidableEq, Repr

/-- An activation as the release unit and the deques carry it (R282): the record words 0 to 14 (octal) as
staged (R273), the boundary index, REL and DEADLINE, and the remaining budget in charge ticks. -/
structure Entry where
  ctx : Nat
  kind : EntryKind
  tenant : Nat
  sealed : Bool
  n : Nat
  rel : Nat
  deadline : Nat
  remain : Int
  carry : Carry
  recw : List Word
deriving DecidableEq, Repr

/-- Where COMMIT stands (R302, R303): not begun, its drain step, or its locks, with the measured cycles spent so far. -/
inductive CommitPhase where
  | idle | draining | locking (spent : Nat)
deriving DecidableEq, Repr

/-- An entry of the descriptor cache (R96). -/
structure DcEntry where
  tenant : Nat
  index : Nat
  d0 : Word
  d1 : Word
deriving DecidableEq, Repr

/-- Issue, hazards and pending exceptions of an engine. -/
structure Pipe where
  /-- the issue clock (R106) -/
  clk : Nat
  /-- engine cycles, measured stalls included (R122) -/
  cyc : Nat
  pend : List Pend
  slot : Option Slot
  /-- the next instruction follows a repeat of count 0 (R166) -/
  skip : Bool
  /-- PH and PL as program order gives them, for MAC and MAC.S (R141) -/
  accH : Word
  accL : Word
  exc : Option Exc
  divDue : Option Nat
  /-- data losses of stores that are due, oldest first (R243) -/
  stLoss : List Nat
  budgetPend : Bool
  budgetRaised : Bool
  dlPend : Bool
  /-- the microwords that have failed within the present instruction (R263) -/
  microFails : List Nat
  /-- the descriptor read for the SEGLD or far transfer that waits for it, entered in the descriptor cache when that
  instruction succeeds (R94, R95, R163) -/
  descIn : Option DcEntry
  /-- DC holds the repeated instruction, which F2 has delivered (R199) -/
  held : Bool := false
deriving DecidableEq, Repr

/-- Memory-side state of an engine. -/
structure EMem where
  near : Tbl Word
  ntag : Tbl Nat
  nbad : List Nat
  /-- most recently used first -/
  l1d : List L1Line
  /-- most recently used first -/
  l1i : List L1I
  /-- the two lines of the line buffer (R182) -/
  lbuf : List L1I
  /-- lines of instructions requested ahead of need (R182, R183) -/
  ahead : List Nat := []
  /-- oldest first -/
  sb : List SbEntry
  /-- oldest first -/
  invq : List Nat
  /-- most recently used first -/
  dcache : List DcEntry
  resv : Option Reserv
  /-- watched granules by their watch entry 1 to 4 (R301, R339) -/
  watch : List WGran
  /-- oldest first -/
  fails : List FailRec
  defer : List Deferred
  pred : Tbl Nat
  /-- lines delivered uncached, for the one instruction that waits for them (R647) -/
  unc : List L1Line
  /-- the answers of control-window blocks for the one instruction that waits for them (R210), and the mark that a wait
  has ended -/
  ctlAns : Option (List Word)
deriving DecidableEq, Repr

/-- What single stepping a release has begun (R598, R599). -/
inductive StepMode where
  | run | step | reserved (left : Nat)
deriving DecidableEq, Repr

/-- The activation an engine runs, its status and its debug state. -/
structure ERun where
  entry : Option Entry
  use : Nat
  cphase : CommitPhase
  /-- STEAL has settled the engine's stores and awaits its search (R288) -/
  stealing : Bool
  /-- the idle loop waits for work (R289) -/
  idleWait : Bool
  inService : Bool
  inReset : Bool
  halted : Bool
  pearl : Bool
  /-- a halt that is due: its cause and unit of DSTAT (R595, R596) -/
  haltReq : Option (Nat × Nat)
  /-- the first instruction after a release matches no breakpoint -/
  bpSkip : Bool
  stepMode : StepMode
  /-- grant number under which the halt was made (R603), 0 when none -/
  haltGrant : Nat
  /-- remaining time to the deadline held under PFRZ (R601) -/
  dlHeld : Option Nat
  /-- device time up to which neither part of the engine watchdog acts (R600) -/
  quiet : Nat
  stall : Option Stall
  /-- the stall that has ended while its instruction is being carried out: no boundary precedes that instruction -/
  resuming : Option Stall
  /-- L1 instruction cache invalidation requested (R532) -/
  l1iInval : Bool
  /-- device time of the last restoration by R519, and the cause of R513 of the last retirement while R519 may still act -/
  autoRestored : Option Nat
  retCause : Nat
deriving DecidableEq, Repr

/-- The control store of an engine (R245, R259): vendor region, the two customer banks and their slot
directories, and the words that fail their check because a stored bit is wrong are simply such words. -/
structure CStore where
  vendor : Tbl Microword
  bank0 : Tbl Microword
  bank1 : Tbl Microword
  dir0 : Tbl Word
  dir1 : Tbl Word
deriving DecidableEq, Repr

/-- One engine. -/
structure Engine where
  regs : Regs
  eff : Eff
  pipe : Pipe
  mem : EMem
  run : ERun
  cstore : CStore
deriving DecidableEq, Repr

/-! ## Home slices and memory -/

/-- Directory states of a committed line (R326). -/
inductive DirState where
  | i | s | e | m | lost
deriving DecidableEq, Repr

/-- A committed line entry (R325). -/
structure HLine where
  st : DirState
  sharers : Nat
  owner : Nat
  dirty : Bool
  poison : Bool
  busy : Bool
  lock : Bool
  ws : List Word
  chk : Word
  way : Nat
  age : Nat
deriving DecidableEq, Repr

/-- A tentative line entry with its check word (R325, R332, R322); `poison` marks one that was found uncorrectable. -/
structure TLine where
  line : Nat
  ctx : Nat
  tenant : Nat
  ws : List Word
  chk : Word
  poison : Bool
  en : Nat
  holder : Option Nat
  lock : Bool
  way : Nat
deriving DecidableEq, Repr

/-- Requests a home slice handles (R327). -/
inductive ReqKind where
  /-- `w` says that the request carries the watch of an LDR for its line (R339) -/
  | rds (ctx : Option Nat) (w : Bool)
  | rdx | upg | rdc | rdo
  | wrl (ws : List Word) | wrm (en : Nat) (ws : List Word)
  | lock (ctx : Nat) | evict
  /-- no request of an agent: invalidations of T copies that the home awaits (R333, R337) -/
  | inval
deriving DecidableEq, Repr

/-- A transaction under way at a home slice (R337): the clusters whose IACK and the owner whose reply it
awaits; `unc` marks one kept open for a merge write (R647); `place` is where the line came from, as in `Msg.data`. -/
structure Txn where
  line : Nat
  req : Agent
  tenant : Nat
  kind : ReqKind
  acks : List Nat
  owner : Option Nat
  unc : Bool
  place : Nat
deriving DecidableEq, Repr

/-- A watch entry (R339): index 0 is the reservation, 1 to 4 the watched granules. -/
structure Watch where
  e : Nat
  idx : Nat
  line : Nat
deriving DecidableEq, Repr

/-- A context watch entry (R650), with the access of the STC it reports. -/
structure CtxWatch where
  ctx : Nat
  line : Nat
deriving DecidableEq, Repr

/-- Granted state of a DATA message (R327, R328); `unc` is DATA marked uncached, `rec_` unrecorded. -/
inductive Grant where
  | s | e | m | unc | rec_
  /-- T, for an activation of context `k` (R332) -/
  | t (k : Nat)
deriving DecidableEq, Repr

/-- Messages in flight (R327). -/
inductive Msg where
  | req (ag : Agent) (line tenant : Nat) (kind : ReqKind)
  | modN (e line : Nat)
  | wbk (e line : Nat) (ws : List Word) (pois : Nat)
  | wrt (e line ctx tenant en : Nat) (ws : List Word)
  | watch (e line idx : Nat)
  | publish (e k h : Nat)
  /-- `place` is where the line was served: 0 the home slice, 1 another cache, 2 DRAM, 3 a shadow copy (R210) -/
  | data (ag : Agent) (line : Nat) (g : Grant) (ws : List Word) (pois place : Nat)
  | ack (ag : Agent) (line : Nat) (unc : Bool)
  | nak (ag : Agent) (line : Nat)
  | fail (ag : Agent) (line cause : Nat)
  | inv (e line : Nat) (byp : Bool)
  | fwds (e line : Nat)
  | fwdx (e line : Nat)
  | rcl (e line : Nat)
  | rsvl (e line : Nat)
  | iack (c line : Nat)
  | fdata (e line : Nat) (ws : List Word) (pois : Nat) (dirty : Bool)
  | fnone (e line : Nat)
deriving DecidableEq, Repr

/-- An entry of a retry table (R338) with the request to resend and the device time at which its back-off ends; the
requests of one line stand in order of arrival. -/
structure Ticket where
  line : Nat
  req : Agent
  naks : Nat
  msg : Msg
  due : Nat
deriving DecidableEq, Repr

/-- The home slices. -/
structure Home where
  lines : Tbl (Option HLine)
  tents : List TLine
  txns : List Txn
  retry : List Ticket
  watches : List Watch
  cwatches : List CtxWatch
  net : List Msg
  age : Nat
deriving DecidableEq, Repr

/-- A check line in a check cache (R50): its group, its eight check words, and whether it is dirty. -/
structure CkLine where
  group : Nat
  cs : List Word
  dirty : Bool
deriving DecidableEq, Repr

/-- The memory system: DRAM words by address, DRAM check words by line number, boot SRAM words by offset, the
check caches of the four controllers (most recently used first), retired channels, and the poison tables (R648).
`restoring` are channels whose rebuild is under way; `purged` holds pairs of channels: every unmirrored line with its data slot on
the first and its check slot on the second holds the poison check word, written by a rebuild of the first (R528), and `written` the
lines of such slots written since. `uecMark` holds the uncorrectable counts at the last
watch of R513. -/
structure Mem where
  dram : Tbl Word
  chk : Tbl Word
  bootSram : Tbl Word
  ckc : Tbl (List CkLine)
  retired : List Nat
  restoring : List Nat
  purged : List (Nat × Nat)
  written : List Nat
  ptab : Tbl (List Nat)
  uecMark : Tbl Nat
deriving DecidableEq, Repr

/-! ## Release unit -/

/-- The release unit beyond its registers. -/
structure Rel where
  /-- boundaries staged and not yet released (R273) -/
  staged : List Entry
  /-- released, placement waiting (R276, R277) -/
  waiting : List Entry
  deques : Tbl (List Entry)
  overflow : Tbl (List Entry)
  /-- yielded entries not yet claimable, with the yielding engine (R307) -/
  yielded : List (Nat × Entry)
  pool : List PoolStore
  ptr : Tbl Nat
  /-- staging and release stopped by stop-all (R604) -/
  stopped : Bool
  /-- one more than the last tick of 25 µs whose release event has been made (R276) -/
  tick : Nat
deriving DecidableEq, Repr

/-! ## Block movers -/

/-- The running transfer of a mover (R401, R402, R405): its channel, the physical word addresses of the first source and
destination word, its units with the first lane of each extent, its tenant and descriptor indices. -/
structure Transfer where
  ch : Nat
  srcW : Nat
  dstW : Nat
  octets : Bool
  srcLane : Nat
  dstLane : Nat
  count : Nat
  tenant : Nat
  sIdx : Nat
  dIdx : Nat
  /-- source words read so far, by physical address -/
  got : Tbl Word
  /-- source lines still to request, and awaited with the time at which they count as unanswered; destination lines alike -/
  toRead : List Nat
  awaitR : List (Nat × Nat)
  toWrite : List Nat
  awaitW : List (Nat × Nat)
  /-- not 0 when the transfer is to end with this error once outstanding requests are answered -/
  err : Nat
  aborting : Bool
  /-- the channel becomes free when the transfer has ended (R392) -/
  unbind : Bool
deriving DecidableEq, Repr

/-- A mover beyond its registers. -/
structure Mover where
  queue : List Nat
  cur : Option Transfer
  retired : Bool
deriving DecidableEq, Repr

/-! ## Ethernet and Septeg -/

/-- A frame to be sent: its octets from the destination address on, its traffic class, and the number of
fragments sent so far. -/
structure TxFrame where
  octets : List Octet
  cls : Nat
  frags : Nat
deriving DecidableEq, Repr

/-- A gate list in operation, as fixed at its change time (R424, R425): base, cycle and length, the present entry, and the step of
device time at which it began at its entry 0 (R646). -/
structure GateRun where
  base : Nat
  cycle : Nat
  len : Nat
  list : Nat
  idx : Nat
  stepAt : Option Nat
deriving DecidableEq, Repr

/-- A port beyond its registers. -/
structure Port where
  txq : Tbl (List TxFrame)
  onLine : Option TxFrame
  preempted : Option TxFrame
  gate : Option GateRun
  chgAt : Option Nat
  vfy : Nat
  slowSec : Nat
  slowCnt : Nat
  slowQ : List RxFrame
  delay : Nat
  /-- device time at which the frame on the line ends, and the octet times left of a preempted frame, in units of device time -/
  lineEnd : Nat
  preLeft : Nat
  /-- device time at which the fragment on the line began; the stamp of the frame on the line, and of a preempted frame, at its
  start-of-frame delimiter (R428, R440) -/
  lineBeg : Nat
  sfd : Nat
  preSfd : Nat
  /-- a step of device time came while this frame was on the line: it goes on under the gate state from before (R646) -/
  gateKept : Bool
  /-- the same of the preempted frame -/
  preKept : Bool
  /-- sequence number of the next Pdelay_Req (R438) -/
  pdSeq : Nat
  /-- sequence number and stamp of the last Pdelay_Req sent; sequence number, receipt time at the peer, correction and arrival stamp of
  its Pdelay_Resp (R438) -/
  pdSent : Option (Nat × Nat)
  pdResp : Option (Nat × Nat × Int × Nat)
deriving DecidableEq, Repr

/-- Recovery state of a stream handle (R431): the highest sequence number accepted, the history marks and the time of the
last accepted frame; and the generation counter. -/
structure StreamRec where
  active : Bool
  high : Nat
  marks : Nat
  last : Nat
  gen : Nat
deriving DecidableEq, Repr

/-- Token buckets of a flow meter in units of 1/5,120,000 octet, and the time of the last frame (R430). -/
structure Bucket where
  c : Nat
  e : Nat
  last : Nat
deriving DecidableEq, Repr

/-- A key slot of a session (R448). -/
structure KeySlot where
  loaded : Bool
  key : List Octet
  salt : List Octet
  txc : Nat
  h : Nat
  marks : Nat
deriving DecidableEq, Repr

/-- A block of a PUBLISH (R453). -/
structure Block where
  block : Nat
  nodata : Bool
  ws : List Word
deriving DecidableEq, Repr

/-- A block that waits at binding `b` for the marking of its frame: its session, sample stamp and arrival stamp (R459). -/
structure HeldBlock where
  b : Nat
  ses : Nat
  hi : Word
  lo : Word
  arr : Nat
  block : Block
deriving DecidableEq, Repr

/-- The end of an activation as the release unit announces it to the Septeg engine: its boundary, whether it was dropped, and TENANT
and OUTIDX as the record held them when it was staged (R273, R462, R463). -/
structure OutNote where
  ctx : Nat
  rel : Nat
  dropped : Bool
  tenant : Nat
  outIdx : Nat
deriving DecidableEq, Repr

/-- A transaction that passed check 6 of R451 and awaits its own step. -/
structure SgIn where
  ses : Nat
  port : Nat
  arrival : Nat
  ty : Nat
  seq : Nat
  txid : Nat
  frameLen : Nat
  fragmented : Bool
  payload : List Octet
deriving DecidableEq, Repr

/-- A READ or WRITE in progress (R466): the lines still to access and awaited. -/
structure SgJob where
  ses : Nat
  txid : Nat
  write : Bool
  first : Nat
  count : Nat
  words : List Word
  got : Tbl Word
  todo : List Nat
  await : Option Nat
  tenant : Nat
  /-- device time at which the request for the awaited line was made -/
  since : Nat
deriving DecidableEq, Repr

/-- MAILBOX state of a session (R468). -/
structure SgMbx where
  busy : Option Nat
  kept : Option (Nat × List Word)
  ready : Option (List Word)
deriving DecidableEq, Repr

/-- A PAIRSYNC record (R470). -/
inductive PairRec where
  | line (l : Nat) (ws : List Word)
  | context (k : Nat) (ws : List Word)
  | commit (k : Nat) (t : Nat)
  | epoch (t : Nat)
deriving DecidableEq, Repr

/-- The Ethernet subsystem and the Septeg engine beyond their registers. -/
structure Net where
  devTime : Nat
  frac : Nat
  ports : Tbl Port
  streams : Tbl StreamRec
  meters : Tbl (Option Bucket)
  sgates : Tbl (Option GateRun)
  sgChg : Tbl (Option Nat)
  keys : Tbl KeySlot
  inq : List SgIn
  jobs : List SgJob
  mbx : Tbl SgMbx
  /-- commit notices whose output blocks are still to be read (R462, R463) -/
  notices : List OutNote
  /-- blocks that wait for the marking of their frame, in order of arrival (R459) -/
  held : List HeldBlock
  /-- gPTP: priority1, priority2, logSyncInterval (biased by 64), good Sync messages, missed intervals -/
  prio1 : Nat
  prio2 : Nat
  logSync : Int
  goodSync : Nat
  syncSeq : Nat
  /-- arrival stamp and sequence number of a two-step Sync that awaits its follow-up -/
  syncArr : Option (Nat × Nat)
  /-- the grandmaster followed: its port and its priority vector -/
  gm : Option (Nat × List Octet)
  /-- device time of the last message of that grandmaster -/
  gmAt : Nat
  /-- clock identities of the masters made unusable (R438) -/
  gmBad : List (List Octet)
  /-- device time of the last accepted frame and of the last HEARTBEAT sent, by session (R467) -/
  hbSilent : Tbl Nat
  hbSent : Tbl Nat
deriving DecidableEq, Repr

/-! ## Management processor -/

/-- A management command in Welana's queue (R490). -/
structure WCmd where
  src : MbSrc
  msg : List Word
deriving DecidableEq, Repr

/-- A class L command whose change is still under way (R492). -/
structure LJob where
  src : MbSrc
  code : Nat
  a : Nat
  b : Nat
  jseq : Nat
deriving DecidableEq, Repr

/-- A journal entry (R504): number, time, source, role, command or event code, result, tenant, the command
message, its detail words, and the chain octets. -/
structure JEntry where
  seqno : Nat
  time : Nat
  src : Nat
  srcId : Nat
  role : Nat
  cmd : Nat
  err : Nat
  tscope : Nat
  odig : List Octet
  detail : List Word
  chain : List Octet
deriving DecidableEq, Repr

/-- A record of the configuration store (R509): type, the key fields, and the data; a record without data
removes its object (R510). -/
structure StoreRec where
  rtype : Nat
  key : List Nat
  data : List Word
deriving DecidableEq, Repr

/-- A delta with its DCHK (R510). -/
structure Delta where
  jseq : Nat
  recs : List StoreRec
  dchk : List Octet
deriving DecidableEq, Repr

/-- A bank of the configuration store (R508): the fields of its header, the records of its base, and its delta area. -/
structure Bank where
  magic : List Octet
  no : Nat
  fmt : Nat
  seq : Nat
  jseq : Nat
  blen : Nat
  bchk : List Octet
  base : List StoreRec
  deltas : List Delta
deriving DecidableEq, Repr

/-- Quotas and group of a tenant (R497). -/
structure Quota where
  maxCtx : Nat
  maxSeg : Nat
  maxCh : Nat
  group : Nat
deriving DecidableEq, Repr

/-- A notice (R486). -/
structure Notice where
  code : Nat
  detail : Nat
  time : Nat
deriving DecidableEq, Repr

/-- An image staged by FIRMWARE STAGE (R502): kind, target index and tenant, header, where it lies (lock
window) and, once activated, its switch time. -/
structure Staged where
  kind : Nat
  tenant : Nat
  index : Nat
  minlvl : Nat
  newIndex : Nat
  win : Nat
  first : Nat
  words : Nat
  image : List Octet
  active : Bool
  swTime : Nat
deriving DecidableEq, Repr

/-- A debug grant in effect (R605, R606). -/
structure GrantTok where
  rights : Nat
  tenant : Nat
  gseq : Nat
  notAfter : Nat
deriving DecidableEq, Repr

/-- An engine whose recovery is due, with its cause of R513. -/
structure Failed where
  e : Nat
  cause : Nat
deriving DecidableEq, Repr

/-- Welana and the management engines beyond their registers. -/
structure Wel where
  mpUp : Tbl Bool
  queue : List WCmd
  ljobs : List LJob
  notices : Tbl (List Notice)
  quotas : Tbl Quota
  groups : Word
  staged : List Staged
  verWelana : Nat
  verMantle : Nat
  clsMantle : Nat
  clsWelana : Nat
  clsVendor : Nat
  mcacc : Nat
  bankSwitch : Option Nat
  /-- the switch time has come and CSSTAT.CBANK names the new bank (R266) -/
  bankDone : Bool
  /-- Welana's golden copies of the control-store images (R263): vendor region, customer banks -/
  goldV : Tbl Microword
  /-- the vendor image under live update (R267) -/
  newV : Tbl Microword
  gold0 : Tbl Microword
  gold1 : Tbl Microword
  goldD0 : Tbl Word
  goldD1 : Tbl Word
  /-- versions of the vendor image and of the image of each customer bank -/
  verVendor : Nat
  /-- the physical bank that serves as the active customer bank on every engine -/
  custBank : Bool
  verCust0 : Nat
  verCust1 : Nat
  shedOrder : List Nat
  tseq : Nat
  journal : List JEntry
  jnext : Nat
  bankA : Bank
  bankB : Bank
  bankInUse : Bool
  failed : List Failed
  /-- detected failures of other units: kind, unit, cause of R513 -/
  failedU : List (Nat × Nat × Nat)
  retireTimes : Tbl (List Nat)
  rerunDue : Bool
  /-- device time of the detection that FLTREC records (FLTREC.DUR) -/
  fltAt : Nat
  grants : Tbl (Option GrantTok)
  gseqMax : Nat
  thermArmed : Bool
  hotCount : Nat
  /-- pairing: partner session, witness session, witness enabled, switchover time -/
  pairRole : Nat
  partner : Nat
  witness : Nat
  witnessEn : Bool
  swAt : Option Nat
  finalMark : Bool
  partnerRole : Nat
  /-- at the primary (R543): the last record acknowledged, where it was an epoch marker; the time of the last marker acknowledged; the
  second marker of the resynchronisation has been acknowledged -/
  ackLast : Option Nat
  ackEpoch : Nat
  ackSync : Bool
  /-- PAIRSYNC: kept records with their numbers, next number, acknowledged, applied, held line records -/
  kept : List (Nat × PairRec)
  recNext : Nat
  /-- number of the next record to send -/
  recSent : Nat
  ackd : Nat
  /-- device time of the last progress of the acknowledgements, or of the first record sent since all were acknowledged (R471) -/
  progAt : Nat
  applied : Nat
  held : List PairRec
  lastEpoch : Nat
  /-- the standby has taken up a stream (R471) -/
  inStream : Bool
  clusterDead : List Nat
  /-- the flash fails to program the next delta of a command (R491); no row sets it (DESIGN CHOICE: log entry 89) -/
  deltaFails : Bool
  /-- device time of the last base written or loaded (R511) -/
  rebaseAt : Nat
  /-- the lock windows of the staged images of kinds 1 to 3 that are in effect, by kind (R564) -/
  curWin : Tbl (Option Nat)
  /-- program-region words of replaced images, as half-open intervals, until every engine has invalidated its L1 instruction cache
  (R532) -/
  freed : List (Nat × Nat)
deriving DecidableEq, Repr

/-! ## Boot, debug, power -/

/-- A version record copy (R573): its fields. -/
structure VersionRec where
  magic : List Octet
  copy : Nat
  epoch : Nat
  seq : Nat
  minver : List Nat
  mac : List Octet
deriving DecidableEq, Repr

/-- The provisioning record (R581): its fields; `wkey` is the wrapped bootstrap key. -/
structure Provision where
  magic : List Octet
  fmt : Nat
  port : Nat
  rate : Nat
  vid : Nat
  wkey : List Octet
  salt : List Octet
  mac : List Octet
deriving DecidableEq, Repr

/-- Phases of the boot sequencer (R567). -/
inductive BootPhase where
  | idle | waitMem | running | halted | recovery
deriving DecidableEq, Repr

/-- Causes of a start (R567, R616). -/
inductive WakeCause where
  | power | reset | failure | sable
deriving DecidableEq, Repr

/-- One of the three stored copies of the fuse fields that commands and starts program (R551): OKEY, SEALED, OPEN, DUSOFF. -/
structure OtpCopy where
  okeys : Tbl (List Octet)
  sealed : Bool
  openF : Bool
  dusOff : Bool
deriving DecidableEq, Repr

/-- The OTP fuses (R551). The fields that manufacture sets, VKEY, DUS, SERIAL and MACBASE, are constants of Config, three copies each. -/
structure Otp where
  c0 : OtpCopy
  c1 : OtpCopy
  c2 : OtpCopy
  vrev : Nat
  orev : Nat
  epoch : Nat
deriving DecidableEq, Repr

/-- The boot and crypto unit and the flash. -/
structure Boot where
  otp : Otp
  /-- lifecycle fuses as of the last device reset: SEALED, OPEN (R581) -/
  lifeSealed : Bool
  lifeOpen : Bool
  phase : BootPhase
  wake : WakeCause
  /-- the octets programmed in each boot slot since its erasure (R565) -/
  slots : Tbl (List Octet)
  vrecs : Tbl VersionRec
  prov : Provision
  minver : List Nat
  /-- the octets programmed in each half of the owner image area (R572) -/
  owner : Tbl (List Octet)
  /-- the image in each management engine's code area, and the lock of that area (R562) -/
  code0 : List Octet
  code1 : List Octet
  codeLock0 : Bool
  codeLock1 : Bool
  recSender : Option Nat
  /-- the DATA taken from the sender: offset and octets, in order of arrival (R577) -/
  recData : List (Nat × List Octet)
  recLast : Nat
  recReset : Bool
  /-- the loader's port, its RATE (1 for 25 Gbit/s) and its VLAN, none for untagged frames (R576); the device time of its last ANNOUNCE -/
  recLine : Nat × Nat × Option Nat
  recAnn : Nat
  /-- the slot that the device did not boot from holds the boot set in effect (R571) -/
  setMoved : Bool
  /-- the recovery loader's last datagram (R577): operation and octets -/
  recOut : Option (Nat × List Octet)
  /-- the frame with which it last answered a neighbour solicitation (R576) -/
  recNs : Option (List Octet)
deriving DecidableEq, Repr

/-- The TAP instruction selected (R586). -/
inductive TapInstr where
  | sample | preload | extest | dbgacc | bypass
deriving DecidableEq, Repr

/-- An access of the debug bus master under way (R590). -/
structure DbgAcc where
  write : Bool
  space : Nat
  eng : Nat
  addr : Nat
  data : Word
deriving DecidableEq, Repr

/-- The debug domain, pins and power beyond their registers. -/
structure Sys where
  tap : TapInstr
  bscan : Tbl Bool
  acc : Option DbgAcc
  accData : Word
  /-- device time at which the debug access under way was requested (R591) -/
  accAt : Nat
  accResult : Nat
  attached : Bool
  heldInReset : Bool
  porHeld : Bool
  slate : List Nat
  /-- clusters in Slate that a change of PWRCTL wakes (R613) -/
  slateWake : List Nat
  /-- those of them whose Slate is emulated: a debugger was attached at its entry (R585, R588) -/
  slateEmul : List Nat
  /-- reference inputs retired by command (R624) -/
  refRetired : List Nat
  sable : Bool
  sableEmul : Bool
  arbOut : ArbPattern
  arbIn : ArbPattern
  devFailN : Bool
  xspiResetN : Bool
  memResetN : Bool
  serdesIdle : Bool
deriving DecidableEq, Repr

/-- What an outside agent was last answered: words read, acceptance, or a declared failure with its cause. The
model's own field: the spec's answer on the fabric has no other place in a block that takes commands. -/
inductive Answer where
  | none | read (ws : List Word) | ok | failed (cause : Nat)
deriving DecidableEq, Repr

/-- The device. `pending` is the queue of waiting commands, first in, first out. -/
structure State where
  eng : Tbl Engine
  home : Home
  mem : Mem
  ctl : Tbl Word
  rel : Rel
  movers : Tbl Mover
  net : Net
  wel : Wel
  boot : Boot
  sys : Sys
  answer : Answer
  freeCtr : Nat
  pending : List Instr
deriving DecidableEq, Repr

/-- Faults of the model: the spec gives the device exceptions and failed stores, which are states; the only
stop is a command that names something the device does not have. -/
inductive Fault where
  /-- A command's operand names a unit or field value the device does not have (engine above 143, register
  number above its field). Raised by every meaning for such operands; safe: no such command exists. -/
  | noSuchUnit
deriving DecidableEq, Repr

/-- Refusals. -/
inductive Refusal where
  /-- The command has no meaning yet; raised by an arm of the dispatch only; safe. -/
  | notModelled (mnemonic : String)
deriving DecidableEq, Repr

/-! ## Reset -/

/-- The registers of R71 at reset. -/
def Regs.reset : Regs :=
  { w := [], ph := 0, pl := 0, st := 0o500000000000, spc := 0, cs := 0o000000100000, tid := 0,
    ectl := 0o400000000000, sad := 0, d := [], finfo := 0, foff := 0, dbg := [], dstat := 0, pc := 0 }

/-- The values in effect at reset: those of the registers (R116). -/
def Eff.reset : Eff := { d := [], open_ := false, pred := true, dbg := [] }

/-- No instruction issued and nothing outstanding. -/
def Pipe.reset : Pipe :=
  { clk := 0, cyc := 0, pend := [], slot := none, skip := false, accH := 0, accL := 0, exc := none, divDue := none,
    stLoss := [], budgetPend := false, budgetRaised := false, dlPend := false, microFails := [], descIn := none }

/-- Caches, store buffer and near store at reset (R101, R181, R182, R205, R318, R365, R626). -/
def EMem.reset : EMem :=
  { near := [], ntag := [], nbad := [], l1d := [], l1i := [], lbuf := [], sb := [], invq := [], dcache := [],
    resv := none, watch := [], fails := [], defer := [], pred := [], unc := [], ctlAns := none }

/-- An engine in service and in reset (R246), running nothing. -/
def ERun.reset : ERun :=
  { entry := none, use := 0, cphase := .idle, stealing := false, idleWait := false, inService := true,
    inReset := true, halted := false, pearl := false, haltReq := none, bpSkip := false, stepMode := .run, haltGrant := 0,
    dlHeld := none, quiet := 0, stall := none, resuming := none, l1iInval := false, autoRestored := none, retCause := 0 }

/-- A cleared control store (R246). -/
def CStore.reset : CStore := { vendor := [], bank0 := [], bank1 := [], dir0 := [], dir1 := [] }

/-- An engine after reset. -/
def Engine.reset : Engine :=
  { regs := .reset, eff := .reset, pipe := .reset, mem := .reset, run := .reset, cstore := .reset }

/-- Home slices with empty arrays (R322, R626). -/
def Home.reset : Home :=
  { lines := [], tents := [], txns := [], retry := [], watches := [], cwatches := [], net := [], age := 0 }

/-- Memory at reset: nothing listed; an unlisted word of DRAM reads as zero. DESIGN CHOICE: log entry 4. -/
def Mem.reset : Mem :=
  { dram := [], chk := [], bootSram := [], ckc := [], retired := [], restoring := [], purged := [], written := [],
    ptab := [], uecMark := [] }

/-- The release unit at reset. -/
def Rel.reset : Rel :=
  { staged := [], waiting := [], deques := [], overflow := [], yielded := [], pool := [], ptr := [],
    stopped := false, tick := 0 }

/-- A mover at reset. -/
def Mover.reset : Mover := { queue := [], cur := none, retired := false }

/-- A port at reset: link down, no queue, no gate list. -/
def Port.reset : Port :=
  { txq := [], onLine := none, preempted := none, gate := none, chgAt := none, vfy := 0, slowSec := 0,
    slowCnt := 0, slowQ := [], delay := 0, lineEnd := 0, preLeft := 0, lineBeg := 0, sfd := 0, preSfd := 0,
    gateKept := false, preKept := false, pdSeq := 0, pdSent := none, pdResp := none }

/-- A stream handle without history (R431). -/
def StreamRec.reset : StreamRec := { active := false, high := 0, marks := 0, last := 0, gen := 0 }

/-- An empty key slot (R448). -/
def KeySlot.reset : KeySlot := { loaded := false, key := [], salt := [], txc := 0, h := 0, marks := 0 }

/-- A session's mailbox without a transaction (R468). -/
def SgMbx.reset : SgMbx := { busy := none, kept := none, ready := none }

/-- The Ethernet subsystem at reset. The gPTP priorities and interval: DESIGN CHOICE, log entry 17. -/
def Net.reset : Net :=
  { devTime := 0, frac := 0, ports := [], streams := [], meters := [], sgates := [], sgChg := [], keys := [],
    inq := [], jobs := [], mbx := [], notices := [], held := [], prio1 := 248, prio2 := 248, logSync := -3, goodSync := 0,
    syncSeq := 0, syncArr := none, gm := none, gmAt := 0, gmBad := [], hbSilent := [], hbSent := [] }

/-- Quotas of zero, group 0. DESIGN CHOICE: log entry 15. -/
def Quota.reset : Quota := { maxCtx := 0, maxSeg := 0, maxCh := 0, group := 0 }

/-- Erased flash: n octets of ones. -/
def eraseOctets (n : Nat) : List Octet := List.replicate n 0xff

/-- An erased bank (R508). -/
def Bank.blank : Bank :=
  { magic := eraseOctets 4, no := 255, fmt := 255, seq := 2 ^ 64 - 1, jseq := 2 ^ 64 - 1, blen := 2 ^ 32 - 1, bchk := eraseOctets 48, base := [],
    deltas := [] }

/-- Welana at reset (R476, R626). -/
def Wel.reset : Wel :=
  { mpUp := [], queue := [], ljobs := [], notices := [], quotas := [],
    groups := 0, staged := [], verWelana := 0, verMantle := 0, clsMantle := 0, clsWelana := 0, clsVendor := 0,
    mcacc := 0, bankSwitch := none, bankDone := false, goldV := [], newV := [], gold0 := [], gold1 := [], goldD0 := [], goldD1 := [],
    verVendor := 0, custBank := false, verCust0 := 0, verCust1 := 0, shedOrder := [], tseq := 0, journal := [], jnext := 0, bankA := .blank,
    bankB := .blank, bankInUse := false, failed := [], failedU := [], retireTimes := [], rerunDue := false, fltAt := 0, grants := [],
    gseqMax := 0, thermArmed := true, hotCount := 0, pairRole := 0, partner := 0, witness := 0,
    witnessEn := false, swAt := none, finalMark := false, partnerRole := 0, ackLast := none, ackEpoch := 0, ackSync := false, kept := [], recNext := 1, recSent := 1, ackd := 0, progAt := 0,
    applied := 0, held := [], lastEpoch := 0, inStream := false, clusterDead := [],
    deltaFails := false, rebaseAt := 0, curWin := [], freed := [] }

/-- An erased version record. -/
def VersionRec.erased : VersionRec :=
  { magic := eraseOctets 4, copy := 255, epoch := 255, seq := 2 ^ 64 - 1, minver := List.replicate 4 4095, mac := eraseOctets 48 }

/-- An erased provisioning record. -/
def Provision.erased : Provision :=
  { magic := eraseOctets 4, fmt := 255, port := 255, rate := 255, vid := 4095, wkey := eraseOctets 40, salt := eraseOctets 4, mac := eraseOctets 48 }

/-- Blank fuses (R581). DESIGN CHOICE: log entry 6. -/
def OtpCopy.blank : OtpCopy := { okeys := [], sealed := false, openF := false, dusOff := false }
def Otp.blank : Otp := { c0 := .blank, c1 := .blank, c2 := .blank, vrev := 0, orev := 0, epoch := 0 }

/-- The boot and crypto unit at reset; the flash erased. DESIGN CHOICE: log entry 7. -/
def Boot.reset : Boot :=
  { otp := .blank, lifeSealed := false, lifeOpen := false, phase := .idle, wake := .power, slots := [],
    vrecs := [], prov := .erased, minver := [1, 1, 1, 1], owner := [], code0 := [], code1 := [], codeLock0 := false, codeLock1 := false,
    recSender := none, recData := [], recLast := 0,
    recReset := false, recLine := (0, 0, none), recAnn := 0, setMoved := false, recOut := none, recNs := none }

/-- The debug domain, pins and power at reset (R586, R637). Cells and pins: DESIGN CHOICE, log entry 8. -/
def Sys.reset : Sys :=
  { tap := .bypass, bscan := [], acc := none, accData := 0, accAt := 0, accResult := 0, attached := false,
    heldInReset := false, porHeld := false, slate := [], slateWake := [], slateEmul := [], refRetired := [], sable := false, sableEmul := false,
    arbOut := .absent, arbIn := .absent, devFailN := true, xspiResetN := false, memResetN := false,
    serdesIdle := true }

/-- The device right after power-on reset (R13, R625, R626): each register at the reset value its rule states;
the control-window words at `ctlReset` of Machine/Regs.lean; no command waiting. -/
def State.reset : State :=
  { eng := [], home := .reset, mem := .reset, ctl := [], rel := .reset, movers := [], net := .reset,
    wel := .reset, boot := .reset, sys := .reset, answer := .none, freeCtr := 0, pending := [] }

end Sys2Proof.Machine
end

