-- ==== Sys2Proof/Machine/Tbl.lean ====
section
/-! DEFINITION. Reading and writing sparse tables in canonical form: strictly rising indices, no entry equal to
what an unlisted index holds. -/

namespace Sys2Proof.Machine

/-- The value at index i; `d` for an unlisted index. -/
def tget {α : Type} (d : α) : Tbl α → Nat → α
  | [], _ => d
  | (k, v) :: t, i => if k = i then v else tget d t i

/-- The table without index i. -/
def tdel {α : Type} : Tbl α → Nat → Tbl α
  | [], _ => []
  | (k, v) :: t, i => if k = i then tdel t i else (k, v) :: tdel t i

/-- The table with v at index i, listed in order. -/
def tput {α : Type} : Tbl α → Nat → α → Tbl α
  | [], i, v => [(i, v)]
  | (k, u) :: t, i, v =>
    if i < k then (i, v) :: (k, u) :: t else if k = i then (i, v) :: t else (k, u) :: tput t i v

/-- The table with v at index i, where `d` is what an unlisted index holds. -/
def tset {α : Type} [DecidableEq α] (d : α) (t : Tbl α) (i : Nat) (v : α) : Tbl α :=
  if v = d then tdel t i else tput t i v

/-- The indices rise strictly, all above `lo` where one is given. -/
def trising {α : Type} : Option Nat → Tbl α → Bool
  | _, [] => true
  | none, (k, _) :: t => trising (some k) t
  | some lo, (k, _) :: t => decide (lo < k) && trising (some k) t

/-- Canonical form. -/
def twf {α : Type} [DecidableEq α] (d : α) (t : Tbl α) : Bool :=
  trising none t && t.all fun p => decide (p.2 ≠ d)

end Sys2Proof.Machine
end

