-- ==== Sys2Proof/Machine/Regs.lean ====
section
/-! DEFINITION. The control window as a table of words (R62): where each block lies, the reset value of each
word, and plain reading and writing of words and doubles. What an access from outside does to a block
(access classes of R12, side effects) is in Machine/Window.lean. Offsets are control-window offsets. -/

namespace Sys2Proof.Machine

/-! ### Blocks (R62) -/

def globalBlk : Nat := 0
def aonBlk : Nat := 0o00010000
def sramBlk : Nat := 0o00020000
def dbgBlk : Nat := 0o00040000
def bootBlk : Nat := 0o00100000
def mcBlk (n : Nat) : Nat := 0o00200000 + 0o100000 * n
def relBlk : Nat := 0o00600000
def ethBlk : Nat := 0o01000000
def ctxBlk : Nat := 0o02000000
def mgmtBlk : Nat := 0o04000000
def cluBlk (c : Nat) : Nat := 0o06000000 + 0o40000 * c
def movBlk (c : Nat) : Nat := 0o07000000 + 0o20000 * c
def bootSramBlk : Nat := 0o10000000

/-- First word of the control window in the physical space (R59). -/
def ctlBase : Nat := 0o377700000000

/-! ### Registers by name -/

def rDEVID : Nat := 0
def rMEMCFG : Nat := 1
def rPRGBND : Nat := 2
def rRSVCFG : Nat := 3
def rDTBASE : Nat := 4
def rMIRBND : Nat := 5
def rSLOTMAP (i : Nat) : Nat := 0o100 + i
def rREFSTAT : Nat := aonBlk
def rPWRCTL : Nat := aonBlk + 0o10
def rPWRSTAT : Nat := aonBlk + 0o11
def rSBWAKE : Nat := aonBlk + 0o12
def rTJ : Nat := aonBlk + 0o14
def rLKW (i : Nat) : Nat := bootBlk + 0o100 + 4 * i

/-- Base of the block of counters of engine e (R213). -/
def rPerf (e : Nat) : Nat := cluBlk (e / 12) + 0o10000 + 0o100 * (e % 12)
def rPCTL (e : Nat) : Nat := rPerf e + 0o40
def rIPEND (e : Nat) : Nat := cluBlk (e / 12) + 0o12000 + 0o10 * (e % 12)
def rIREQ (e : Nat) : Nat := rIPEND e + 1
def rMCAUSE (e : Nat) : Nat := rIPEND e + 2
def rCSSTAT (e : Nat) : Nat := cluBlk (e / 12) + 0o13000 + 0o10 * (e % 12)
def rCSERR (e : Nat) : Nat := rCSSTAT e + 1
def rENGGEN (e : Nat) : Nat := rCSSTAT e + 2
def rHSTAT (c : Nat) : Nat := cluBlk c + 0o14000
def rHLOST (c : Nat) : Nat := cluBlk c + 0o14001
def rDEDIC (e : Nat) : Nat := cluBlk (e / 12) + 0o15000 + 0o10 * (e % 12)
/-- Counters of sub-channel j of memory controller n (R359). -/
def rMCSC (n j : Nat) : Nat := mcBlk n + 0o10 + j
def rMVBIND (c n : Nat) : Nat := movBlk c + 0o10000 + n
def rRUCTL : Nat := relBlk
def rRUSTAT : Nat := relBlk + 1
def rCREMAP (i : Nat) : Nat := relBlk + 0o200 + 4 * i
/-- Word i of the tenant record of tenant t (R361). -/
def rTen (t i : Nat) : Nat := relBlk + 0o100000 + 8 * t + i
/-- Word i of the context record of context k (R269). -/
def rCtx (k i : Nat) : Nat := ctxBlk + 32 * k + i

/-! ### Reset values -/

/-- The reset value of the word at a control-window offset: the field tables' reset values; 0 elsewhere. -/
def ctlReset (off : Nat) : Word :=
  if off = rDEVID then 0o154270340201
  else if off = rPWRCTL then place 0 1 1 ||| place 4 17 0o30
  else if off = ethBlk + 0o40000 then place 0 15 0o145030
  else if ethBlk ≤ off ∧ off < ethBlk + 0o40000 ∧ off % 0o10000 = 0o14 then place 0 7 0o377
  else if cluBlk 0 ≤ off ∧ off < cluBlk 12 ∧ 0o10000 ≤ off % 0o40000 ∧ off % 0o40000 < 0o11400
      ∧ off % 0o100 = 0o40 then place 2 4 7 ||| place 5 5 1
  else 0

/-- The word at a control-window offset as stored. -/
def State.cg (s : State) (off : Nat) : Word := tget (ctlReset off) s.ctl off

/-- Stores a word at a control-window offset. -/
def State.cs (s : State) (off : Nat) (w : Word) : State := { s with ctl := tset (ctlReset off) s.ctl off w }

/-- Field x[a..b] of a stored word. -/
def State.cf (s : State) (off a b : Nat) : Nat := fld (s.cg off) a b

/-- Replaces field x[a..b] of a stored word. -/
def State.csf (s : State) (off a b v : Nat) : State := s.cs off (setFld (s.cg off) a b v)

/-- Bit i of a stored word. -/
def State.cb (s : State) (off i : Nat) : Bool := bit (s.cg off) i

/-- A stored double as a number (R34). -/
def State.cg2 (s : State) (off : Nat) : Nat := dbl (s.cg off) (s.cg (off + 1))

/-- Stores a double, modulo 2^72. -/
def State.cs2 (s : State) (off n : Nat) : State := (s.cs off (hiW n)).cs (off + 1) (loW n)

/-- Adds n to the double at off, wrapping at 2^72 (R214). -/
def State.cadd2 (s : State) (off n : Nat) : State := s.cs2 off (s.cg2 off + n)

/-- n words from off on. -/
def State.cgs (s : State) (off n : Nat) : List Word := (List.range n).map fun i => s.cg (off + i)

/-- Stores words from off on. -/
def State.css (s : State) (off : Nat) : List Word → State
  | [] => s
  | w :: ws => (s.cs off w).css (off + 1) ws

/-- Adds 1 to a saturating count field x[a..b] (its bound all ones). -/
def State.csat (s : State) (off a b : Nat) : State :=
  s.csf off a b (satInc (2 ^ (b - a + 1) - 1) (s.cf off a b))

end Sys2Proof.Machine
end

