-- ==== Sys2Proof/Machine/Map.lean ====
section
/-! DEFINITION. Which control-window offsets hold registers and how each field is accessed (R12, R60, R62), from
the field tables of the chapters. -/

namespace Sys2Proof.Machine

/-- The access classes of the bits of a word (R12): read, read/write, write-one-clear, read-clears. A bit in no
mask reads as zero and ignores what is written. -/
structure RegAcc where
  ro : Word
  rw : Word
  w1c : Word
  rc : Word
deriving DecidableEq, Repr

def accRO (m : Word) : RegAcc := { ro := m, rw := 0, w1c := 0, rc := 0 }
def accRW (m : Word) : RegAcc := { ro := 0, rw := m, w1c := 0, rc := 0 }
def accRC (m : Word) : RegAcc := { ro := 0, rw := 0, w1c := 0, rc := m }
def accWO : RegAcc := accRO 0
def full : Word := maskW 0 35

def mapGlobal (o : Nat) : Option RegAcc :=
  if o = 0 then some (accRO full)
  else if o = 1 then some (accRO (maskW 0 2 ||| maskW 5 35))
  else if o = 2 then some (accRW full)
  else if o = 3 then some (accRW (maskW 0 1))
  else if o = 4 then some (accRW (maskW 0 13))
  else if o = 5 then some (accRW full)
  else if 0o100 ≤ o ∧ o ≤ 0o177 then some (accRW (maskW 0 6 ||| maskW 9 15 ||| maskW 18 24 ||| maskW 27 33))
  else none

def mapAon (o : Nat) : Option RegAcc :=
  if o = 0 then some (accRO (maskW 0 15))
  else if o = 0o10 then some (accRW (maskW 0 17))
  else if o = 0o11 then some (accRO (maskW 0 19))
  else if o = 0o12 ∨ o = 0o13 then some (accRW full)
  else if o = 0o14 then some (accRO full)
  else none

def mapDebug (o : Nat) : Option RegAcc :=
  if o = 1 then some { ro := maskW 1 1, rw := maskW 0 0, w1c := 0, rc := 0 }
  else if 0o100 ≤ o ∧ o < 0o100 + 288 then some (if o % 2 = 0 then accWO else accRO full)
  else if 0o1000 ≤ o ∧ o < 0o1100 then
    some (accRW (if o % 4 = 0 then maskW 0 25 else if o % 4 = 3 then 0 else full))
  else none

def mapBoot (o : Nat) : Option RegAcc :=
  if o = 0 then some (accRO (maskW 0 24))
  else if o = 1 then some (accRO (maskW 0 8))
  else if o = 2 then some accWO
  else if o = 3 then some (accRO (maskW 0 6))
  else if 0o10 ≤ o ∧ o ≤ 0o27 then some accWO
  else if 0o100 ≤ o ∧ o < 0o200 then
    some (accRW (match o % 4 with
      | 0 => maskW 0 1
      | 1 => maskW 1 35
      | 2 => full
      | _ => 0))
  else if 0o4000 ≤ o ∧ o ≤ 0o7777 then some accWO
  else none

def mapRel (o : Nat) : Option RegAcc :=
  if o = 0 then some (accRW (maskW 0 0))
  else if o = 1 then some { ro := maskW 1 14, rw := 0, w1c := maskW 0 0, rc := maskW 15 35 }
  else if 0o200 ≤ o ∧ o < 0o300 then some (accRW (if o % 4 = 0 then maskW 0 28 else if o % 4 = 1 then 0 else full))
  else if 0o100000 ≤ o ∧ o < 0o200000 then
    some (accRW (match o % 8 with
      | 0 => maskW 0 16
      | 4 => maskW 0 27
      | 5 => maskW 0 15
      | 7 => 0
      | _ => full))
  else none

def mapCtx (o : Nat) : Option RegAcc :=
  match o % 32 with
  | 0 => some (accRW (maskW 0 22))
  | 1 => some (accRW (maskW 0 31))
  | 8 => some (accRW (maskW 0 31))
  | 9 => some (accRW (maskW 0 31))
  | 10 => some (accRW (maskW 0 23))
  | 11 => some (accRW (maskW 0 23))
  | 12 => some (accRW (maskW 0 11))
  | i => some (if 15 ≤ i ∧ i ≤ 26 then accRO full else if i = 30 then accRO full else accRW full)

def mapPort (o : Nat) : Option RegAcc :=
  if o = 0 then some { ro := maskW 3 3, rw := maskW 0 2 ||| maskW 4 20, w1c := 0, rc := 0 }
  else if o = 1 then some { ro := maskW 0 2, rw := 0, w1c := maskW 3 3, rc := 0 }
  else if o = 2 then some (accRW full)
  else if o = 3 then some (accRW (maskW 0 17))
  else if o = 0o10 then some { ro := maskW 1 2, rw := maskW 0 0 ||| maskW 4 12, w1c := 0, rc := 0 }
  else if o = 0o11 then some (accRW (maskW 6 35))
  else if o = 0o12 ∨ o = 0o13 then some (accRW full)
  else if o = 0o14 then some (accRW (maskW 0 9))
  else if 0o20 ≤ o ∧ o ≤ 0o117 then some (accRW (maskW 0 12))
  else if 0o120 ≤ o ∧ o ≤ 0o157 then some (accRW (if o % 2 = 0 then full else maskW 0 18))
  else if 0o200 ≤ o ∧ o ≤ 0o223 then some (accRW full)
  else if o = 0o224 then some (accRW (maskW 0 7))
  else if 0o300 ≤ o ∧ o < 0o334 then some (accRC full)
  else if 0o1000 ≤ o ∧ o ≤ 0o1777 then some (accRW full)
  else none

def mapSession (i : Nat) : RegAcc :=
  match i with
  | 0 => accRW (maskW 0 29)
  | 1 => accRW (maskW 0 26)
  | 2 => accRW (maskW 0 30)
  | 4 => accRW (maskW 0 17)
  | 9 => accRC full
  | 10 => accRC full
  | 11 => accRO (maskW 0 7)
  | _ => accRW full

def mapEth (o : Nat) : Option RegAcc :=
  if o < 0o40000 then mapPort (o % 0o10000)
  else if o = 0o40000 then some (accRW (maskW 0 16))
  else if o = 0o40010 ∨ o = 0o40011 then some (accRO full)
  else if o = 0o40012 ∨ o = 0o40013 then some accWO
  else if o = 0o40014 then some (accRW full)
  else if o = 0o40015 then some (accRO full)
  else if 0o50000 ≤ o ∧ o < 0o70000 then
    some (accRW (match o % 8 with
      | 0 => maskW 0 18
      | 5 => maskW 0 15
      | 6 => maskW 0 29
      | 7 => maskW 0 21
      | _ => full))
  else if 0o70000 ≤ o ∧ o < 0o72000 then
    some (match o % 16 with
      | 0 => { ro := maskW 1 2, rw := maskW 0 0 ||| maskW 4 12, w1c := 0, rc := 0 }
      | 1 => accRW (maskW 6 35)
      | 2 => accRW full
      | 3 => accRW full
      | _ => accRW (maskW 0 0 ||| maskW 8 35))
  else if 0o72000 ≤ o ∧ o < 0o76000 then some (accRW full)
  else if 0o76000 ≤ o ∧ o < 0o100000 then some (accRW (maskW 0 1))
  else if 0o100000 ≤ o ∧ o < 0o100000 + 12 * 16384 then some (mapSession ((o - 0o100000) % 12))
  else if 0o700000 ≤ o ∧ o < 0o700040 then some (accRC full)
  else if 0o710000 ≤ o ∧ o < 0o710000 + 2 * 14336 then some (accRW (if o % 2 = 0 then full else maskW 0 27))
  else none

/-- MBDB (R483). -/
def accMBDB : RegAcc := { ro := maskW 2 18, rw := maskW 0 0, w1c := maskW 1 1 ||| maskW 19 19, rc := 0 }

def mapMgmt (o : Nat) : Option RegAcc :=
  if o < 0o1400000 then
    some (if o % 96 = 95 then accMBDB else if o % 96 < 32 then accRW full else accRO full)
  else if o < 0o1404000 then
    let i := o - 0o1400000
    if i < 0o470 then some (accRW full)
    else if 0o1000 ≤ i ∧ i < 0o1470 then some (accRO full)
    else if i = 0o3777 then some accMBDB
    else none
  else if o = 0o1404000 then some (accRO (maskW 0 27))
  else if o = 0o1404010 then some (accRO (maskW 0 7 ||| maskW 12 35))
  else if o = 0o1404011 then some (accRC full)
  else if o = 0o1404012 ∨ o = 0o1404013 then some (accRO full)
  else none

def mapCluster (o : Nat) : Option RegAcc :=
  if 0o10000 ≤ o ∧ o < 0o11400 then
    if o % 0o100 < 0o32 then some (accRO full)
    else if o % 0o100 = 0o40 then some (accRW (maskW 0 0 ||| maskW 2 5))
    else none
  else if 0o12000 ≤ o ∧ o < 0o12140 then
    match o % 8 with
    | 0 => some { ro := maskW 0 0, rw := 0, w1c := maskW 1 2, rc := 0 }
    | 1 => some (accRW full)
    | 2 => some { ro := 0, rw := 0, w1c := maskW 0 5, rc := 0 }
    | _ => none
  else if 0o13000 ≤ o ∧ o < 0o13140 then
    match o % 8 with
    | 0 => some (accRO (maskW 0 26))
    | 1 => some (accRC full)
    | 2 => some (accRW (maskW 0 0))
    | _ => none
  else if o = 0o14000 then some (accRC full)
  else if o = 0o14001 then some (accRO (maskW 0 31))
  else if 0o15000 ≤ o ∧ o < 0o15140 ∧ o % 8 = 0 then some (accRW (maskW 0 18))
  else none

def mapMover (o : Nat) : Option RegAcc :=
  if o < 0o10000 then
    match o % 0o400 with
    | 0 => some (accRW (maskW 0 16))
    | 1 => some (accRW full)
    | 2 => some (accRW full)
    | 3 => some (accRW (maskW 6 35))
    | 4 => some (accRW (maskW 0 0))
    | 8 => some (accRW (maskW 0 16))
    | 9 => some (accRW full)
    | 10 => some (accRW full)
    | 11 => some (accRW (maskW 6 35))
    | 12 => some (accRW (maskW 0 0))
    | 16 => some (accRO (maskW 0 23))
    | 17 => some (accRO full)
    | 18 => some accWO
    | _ => none
  else if o < 0o10020 then some (accRW (maskW 0 33))
  else if o = 0o10020 then some (accRO (maskW 0 9))
  else none

/-- The access classes of the word at a control-window offset; none for an unassigned offset (R60, R62). -/
def ctlAcc (o : Nat) : Option RegAcc :=
  if o < 0o10000 then mapGlobal o
  else if o < 0o20000 then mapAon (o - aonBlk)
  else if o < 0o40000 then some (accRW full)
  else if o < 0o100000 then mapDebug (o - dbgBlk)
  else if o < 0o200000 then mapBoot (o - bootBlk)
  else if o < 0o600000 then
    if (o - 0o200000) % 0o100000 = 0o10 ∨ (o - 0o200000) % 0o100000 = 0o11 then some (accRC full) else none
  else if o < 0o1000000 then mapRel (o - relBlk)
  else if o < 0o2000000 then mapEth (o - ethBlk)
  else if o < 0o4000000 then mapCtx (o - ctxBlk)
  else if o < 0o6000000 then mapMgmt (o - mgmtBlk)
  else if o < 0o6600000 then mapCluster ((o - 0o6000000) % 0o40000)
  else if 0o7000000 ≤ o ∧ o < 0o7300000 then mapMover ((o - 0o7000000) % 0o20000)
  else if 0o10000000 ≤ o ∧ o < 0o11000000 then some (accRW full)
  else none

/-- The debug mailbox, which only the debug bus master reaches (R485). -/
def dbgOnly (o : Nat) : Bool := decide (mgmtBlk + 0o1400000 ≤ o ∧ o < mgmtBlk + 0o1404000)

end Sys2Proof.Machine
end

