-- ==== Sys2Proof/Machine/Ops.lean ====
section
/-! DEFINITION. The shared operations on an engine: its registers, results that have not landed (R106 to R109),
the issue clock and the charge (R212, R294), performance counters (R213), detected exceptions (R222), and the
one way an instruction issues (R92, R110, R111, R129, R164 to R168, R194 to R199). -/

namespace Sys2Proof.Machine

/-! ### Engines and their registers -/

def State.e (s : State) (n : Nat) : Engine := tget Engine.reset s.eng n
def State.setE (s : State) (n : Nat) (g : Engine) : State := { s with eng := tset Engine.reset s.eng n g }
def State.modE (s : State) (n : Nat) (f : Engine → Engine) : State := s.setE n (f (s.e n))

def Engine.modRegs (g : Engine) (f : Regs → Regs) : Engine := { g with regs := f g.regs }
def Engine.modPipe (g : Engine) (f : Pipe → Pipe) : Engine := { g with pipe := f g.pipe }
def Engine.modMem (g : Engine) (f : EMem → EMem) : Engine := { g with mem := f g.mem }
def Engine.modRun (g : Engine) (f : ERun → ERun) : Engine := { g with run := f g.run }

def Engine.w (g : Engine) (n : Nat) : Word := tget 0 g.regs.w n
def Engine.d (g : Engine) (n : Nat) : Word := tget 0 g.regs.d n
def Engine.setD (g : Engine) (n : Nat) (v : Word) : Engine := g.modRegs fun r => { r with d := tset 0 r.d n v }
def Engine.level (g : Engine) : Nat := fld g.regs.st 0 1
def Engine.mask (g : Engine) : Bool := bit g.regs.st 2
def Engine.dsBit (g : Engine) : Bool := bit g.regs.st 4
def Engine.ru (g : Engine) : Bool := bit g.regs.st 5
def Engine.rc (g : Engine) : Nat := fld g.regs.st 24 35
def Engine.tenant (g : Engine) : Nat := fld g.regs.tid 0 11
def Engine.ctx (g : Engine) : Nat := fld g.regs.tid 12 25
def Engine.sealed (g : Engine) : Bool := bit g.regs.tid 26
def Engine.act (g : Engine) : Bool := bit g.regs.tid 27

/-- Reads a destination register as it stands: only landed results (R107). -/
def Engine.rd (g : Engine) : Dst → Word
  | .w n => g.w n
  | .ph => g.regs.ph
  | .pl => g.regs.pl
  | .st => g.regs.st

/-- Writes a destination register. -/
def Engine.wr (g : Engine) (d : Dst) (v : Word) : Engine :=
  g.modRegs fun r =>
    match d with
    | .w n => { r with w := tset 0 r.w n v }
    | .ph => { r with ph := v }
    | .pl => { r with pl := v }
    | .st => { r with st := v }

/-- A pair of registers as a double (R128). -/
def Engine.pair (g : Engine) (n : Nat) : Nat := dbl (g.w n) (g.w (n + 1))

/-! ### Results that have not landed -/

/-- The bits of ST (R71). -/
def stZ : Word := maskW 6 6
def stN : Word := maskW 7 7
def stC : Word := maskW 8 8
def stV : Word := maskW 9 9
def stQ : Word := maskW 10 10
def stFLG : Word := maskW 11 15
def allW : Word := maskW 0 35

/-- A whole-register result. -/
def resW (d : Dst) (v : Word) (at_ : Nat) : Pend :=
  { dst := d, mask := allW, val := v, orv := 0, at_ := at_, unit := .none, fault := none }

/-- A flag result: the fields under `m` become those of `v`, and `o` is ORed in (R134, R153). -/
def resF (m v o : Word) (at_ : Nat) : Pend :=
  { dst := .st, mask := m, val := v, orv := o, at_ := at_, unit := .none, fault := none }

/-- Enters a result behind every result that lands no later (R109: in one cycle, the younger stands). -/
def pendIns (p : Pend) : List Pend → List Pend
  | [] => [p]
  | q :: t => if q.at_ ≤ p.at_ then q :: pendIns p t else p :: q :: t

def Engine.post (g : Engine) (p : Pend) : Engine := g.modPipe fun q => { q with pend := pendIns p q.pend }
def Engine.posts (g : Engine) (ps : List Pend) : Engine := ps.foldl Engine.post g

/-- One result lands (R107); a divide by zero becomes due (R241). -/
def Engine.land (g : Engine) (p : Pend) : Engine :=
  match p.fault with
  | some a => g.modPipe fun q => { q with divDue := some a }
  | none => g.wr p.dst ((g.rd p.dst &&& ~~~ p.mask) ||| (p.val &&& p.mask) ||| p.orv)

/-- Lands, in order, the results of a list up to cycle t; answers the rest. -/
def landList (t : Nat) : List Pend → Engine → Engine × List Pend
  | [], g => (g, [])
  | p :: ps, g => if p.at_ ≤ t then landList t ps (g.land p) else (g, p :: ps)

/-- Lands everything due at issue-clock cycle t (R179). -/
def Engine.landUpTo (g : Engine) (t : Nat) : Engine :=
  let r := landList t g.pipe.pend g
  r.1.modPipe fun q => { q with pend := r.2 }

/-- The cycle at which the last outstanding result lands; the issue clock when none is outstanding. -/
def Engine.lastLanding (g : Engine) : Nat := g.pipe.pend.foldl (fun m p => max m p.at_) g.pipe.clk

/-- As `lastLanding`, for long operations alone (R198). -/
def Engine.lastLong (g : Engine) : Nat :=
  g.pipe.pend.foldl (fun m p => if p.unit = .none then m else max m p.at_) g.pipe.clk

/-! ### Clocks, charge and counters -/

/-- Charge ticks of one engine cycle at the operating point in effect (R294). -/
def ticksPerCycle (s : State) : Nat :=
  match s.cf rPWRSTAT 2 3 with
  | 0 => 6
  | 1 => 8
  | _ => 12

/-- Whether PCTL of engine e admits counting now (R214). -/
def counting (s : State) (e : Nat) : Bool :=
  let p := s.cg (rPCTL e)
  let g := s.e e
  let lvl := match g.level with
    | 2 => bit p 2
    | 1 => bit p 3
    | _ => bit p 4
  bit p 0 && lvl && !(bit p 5 && g.run.halted)

/-- The counters of R213 by their offsets. -/
def cPCYC : Nat := 0
def cPISS : Nat := 2
def cPINS : Nat := 4
def cPILK : Nat := 6
def cPBRC : Nat := 0o10
def cPBRM : Nat := 0o12
def cPMIF : Nat := 0o14
def cPMLD : Nat := 0o16
def cPSIF : Nat := 0o20
def cPSLD : Nat := 0o22
def cPSSB : Nat := 0o24
def cPSFN : Nat := 0o26
def cPSMC : Nat := 0o30

/-- Adds n to a counter of engine e where `adm` says that PCTL admits it (R214). -/
def countIf (adm : Bool) (e k n : Nat) (s : State) : State := if adm && n ≠ 0 then s.cadd2 (rPerf e + k) n else s

/-- Adds n to a counter of engine e where PCTL admits it now. -/
def count (e k n : Nat) (s : State) : State := countIf (counting s e) e k n s

/-- n engine cycles pass for engine e: they count toward the reservation limit (R122) and, with TID.ACT at 1,
are charged (R212). -/
def cycles (e n : Nat) (s : State) : State :=
  let tk := ticksPerCycle s
  s.modE e fun g =>
    let g := g.modPipe fun p => { p with cyc := p.cyc + n }
    if g.act then g.modRun fun r => { r with use := r.use + n * tk } else g

/-- n fixed cycles: the issue clock advances (R209). -/
def fixed (e n : Nat) (s : State) : State :=
  let s := count e cPISS n (count e cPCYC n (cycles e n s))
  s.modE e fun g => g.modPipe fun p => { p with clk := p.clk + n }

/-- n measured stall cycles, counted under counter k (R180, R212). -/
def measured (e k n : Nat) (s : State) : State := count e k n (count e cPCYC n (cycles e n s))

/-- Lands what is due at the issue clock. -/
def landNow (e : Nat) (s : State) : State := s.modE e fun g => g.landUpTo g.pipe.clk

/-- The issue clock runs to cycle t, if that is later, and what is due lands. -/
def waitTo (e t : Nat) (s : State) : State := landNow e (fixed e (t - (s.e e).pipe.clk) s)

/-! ### Vectors (R217) -/

def vDouble : Nat := 1
def vMchk : Nat := 2
def vDeadline : Nat := 3
def vMvc : Nat := 4
def vIll : Nat := 5
def vPriv : Nat := 6
def vSeg : Nat := 7
def vAddr : Nat := 0o10
def vLoss : Nat := 0o11
def vStore : Nat := 0o12
def vDivide : Nat := 0o13
def vRet : Nat := 0o14
def vBrk : Nat := 0o15
def vSvc : Nat := 0o16
def vBudget : Nat := 0o17
def vEreq : Nat := 0o40
def vWork : Nat := 0o41

/-- An exception with no access, at the given return point. -/
def excAt (vec cause ret : Nat) : Exc := { vec, cause, seg := 0, off := 0, ret, ds := false }

/-- Engine e has detected an exception (R222). -/
def detect (e : Nat) (x : Exc) (s : State) : State := s.modE e fun g => g.modPipe fun p => { p with exc := some x }

/-- A precise fault of the instruction at pc: its return point, with the branch and DS for a delay slot
(R216, R238). -/
def preciseFault (e vec cause seg : Nat) (off : Word) (s : State) : State :=
  let g := s.e e
  match g.pipe.slot with
  | some sl => detect e { vec, cause, seg, off, ret := sl.branch, ds := true } s
  | none => detect e { vec, cause, seg, off, ret := g.regs.pc, ds := false } s

/-- An illegal-instruction fault (R220). -/
def illegal (e cause : Nat) (s : State) : State := preciseFault e vIll cause 0 0 s

/-- A data-loss fault of a load: it is detected in the load's MA cycle, one cycle after issue (R222). -/
def lossFault (e cause seg : Nat) (off : Word) (s : State) : State := preciseFault e vLoss cause seg off (fixed e 1 s)

/-- Enters a measured stall that holds an instruction; `x` says that the instruction has issued (R180). -/
def stallAt (x : Bool) (e : Nat) (i : Instr) (w : Wait) (s : State) : State :=
  s.modE e fun g => g.modRun fun r => { r with stall := some { instr := i, why := w, inEx := x } }

/-- A measured stall of an instruction that has issued. -/
def stallOn (e : Nat) (i : Instr) (w : Wait) (s : State) : State := stallAt true e i w s

/-- The instruction of a stall that has ended is carried out, and it had issued before the stall. -/
def inEx (g : Engine) : Bool :=
  match g.run.resuming with
  | some x => x.inEx
  | none => false

/-! ### Boundaries -/

/-- The exceptions that an instruction boundary lets be taken before the next instruction, in the order of R224
(R113, R233, R236, R237, R238, R241, R243). None is taken between a branch and its delay slot. Where one stands, the engine
issues nothing; its recognition then waits for the outstanding results (R223). Between the executions of a repeat, an
interrupt is none while a result is outstanding (R239). -/
def boundaryExc (s : State) (e : Nat) : Option Exc :=
  let g := s.e e
  let pc := g.regs.pc
  let irq := !g.mask && !(decide (g.rc ≠ 0) && (g.ru || !g.pipe.pend.isEmpty))
  if g.pipe.slot.isSome || g.pipe.skip || inEx g then none
  else if g.pipe.dlPend && g.level < 2 then some (excAt vDeadline 0 pc)
  else match g.pipe.divDue with
  | some a => some (excAt vDivide (0o40 + a) pc)
  | none =>
  match g.pipe.stLoss with
  | pa :: _ => some { vec := vLoss, cause := 3, seg := 0o17, off := mkW pa, ret := pc, ds := false }
  | [] =>
  if irq && s.cb (rIPEND e) 0 then
    some (excAt vMchk ((List.range 6).find? (fun i => s.cb (rMCAUSE e) i) |>.getD 0) pc)
  else if g.pipe.budgetPend && g.level < 2 && g.run.cphase = .idle then some (excAt vBudget 0 pc)
  else if irq && !g.act && s.cb (rIPEND e) 1 then some (excAt vEreq 0 pc)
  else if irq && !g.act && s.cb (rIPEND e) 2 then some (excAt vWork 0 pc)
  else none

/-- The reset values of the debug registers (R594). -/
def dbgReset (n : Nat) : Word := if n = 0o60 then place 13 13 1 else 0

/-- The debug register of number n: as written, and as in effect (R115). -/
def Engine.dbg (g : Engine) (n : Nat) : Word := tget (dbgReset n) g.regs.dbg n
def Engine.dbgE (g : Engine) (n : Nat) : Word := tget (dbgReset n) g.eff.dbg n

/-- The breakpoint that matches at the next instruction of engine e, if any; for a branch in OPEN mode, one at its delay slot,
`d` parcels on, halts before the branch (R595). -/
def bpMatch (s : State) (e d : Nat) : Option Nat :=
  let g := s.e e
  if !s.sys.attached || g.run.bpSkip || g.pipe.slot.isSome then none
  else match g.run.stepMode with
    | .reserved _ => none
    | _ => (List.range 4).find? fun i =>
        let bp := g.dbgE (0o61 + i)
        bit (g.dbgE 0o60) (2 + i) && fld bp 0 7 = fld g.regs.cs 12 19
          && (fld bp 8 35 = g.regs.pc || (g.eff.open_ && decide (d ≠ 0) && fld bp 8 35 = g.regs.pc + d))

/-- The watchpoint that an access to these physical words matches (R595). -/
def wpMatch (s : State) (e : Nat) (store : Bool) (pas : List Nat) : Option Nat :=
  let g := s.e e
  if !s.sys.attached then none
  else match g.run.stepMode with
    | .reserved _ => none
    | _ => (List.range 2).find? fun i =>
        let c := g.dbgE 0o60
        bit c (6 + i) && bit c (8 + 2 * i + (if store then 0 else 1)) && pas.contains (fld (g.dbgE (0o65 + i)) 1 35)

/-- A halt becomes due (R595, R598). -/
def haltDue (e cause unit : Nat) (s : State) : State :=
  s.modE e fun g => g.modRun fun r => { r with haltReq := some (cause, unit) }

/-- A due halt is taken at this boundary, once the outstanding results have landed (R596). -/
def haltNow (g : Engine) : Bool := g.run.haltReq.isSome && !(g.ru && g.rc ≠ 0) && g.pipe.slot.isNone

/-- Whether engine e runs instructions: in service, out of reset, in Ivory, not halted, not stalled, no
exception detected and awaiting its entry, no halt request due, not waiting in the idle loop (R15 of the fault
chapter's states: R246, R515, R597, R608, R180, R222, R289). -/
def canIssue (g : Engine) : Bool :=
  g.run.inService && !g.run.inReset && !g.run.halted && !g.run.pearl && g.run.stall.isNone && g.pipe.exc.isNone
    && g.run.cphase = .idle && !g.run.stealing && !g.run.idleWait && (inEx g || !(haltNow g))

/-! ### Issue -/

/-- What issue has to know of an instruction: the cause of an illegal-instruction fault that its fields raise
(R129, R220), whether a delay slot may hold it (R111), whether it can be repeated (R164), whether it is a branch
of R231, the level it requires (R81), the registers it reads and writes for R108, its long unit, and whether
the next parcel follows it. -/
structure Iss where
  e : Nat
  instr : Instr
  len : Nat
  ill : Option Nat
  slotOk : Bool
  rep : Bool
  branch : Bool
  need : Nat
  reads : List Dst
  writes : List Dst
  unit : LongUnit
  seq : Bool

/-- The smallest cause of an illegal-instruction fault that applies. -/
def illCause (q : Iss) (g : Engine) : Option Nat :=
  let cs := q.ill.toList ++ (if g.pipe.slot.isSome && !q.slotOk then [4] else [])
    ++ (if g.rc ≠ 0 && !q.rep then [5] else []) ++ (if g.dsBit && !q.branch then [0o12] else [])
  match cs with
  | [] => none
  | c :: t => some (t.foldl min c)

/-- The first cycle at or after i at which the long-op unit accepts an operation of sub-unit u (R155). -/
def acceptAt (u : LongUnit) (i : Nat) (ps : List Pend) : Nat :=
  let live := fun (t : Nat) => ps.filter fun p => p.unit ≠ .none && t < p.at_
  let free := fun (t : Nat) => decide ((live t).length < 4)
    && !(u = .divider && (live t).any fun p => decide (p.unit = .divider))
  if u = .none then i
  else ((i :: ps.map Pend.at_).find? fun t => decide (i ≤ t) && free t).getD i

/-- The register interlock of INTERLOCKED mode: the landing of every older result the instruction reads or
writes over (R108, R194). -/
def hazardAt (q : Iss) (g : Engine) : Nat :=
  if g.eff.open_ then g.pipe.clk
  else g.pipe.pend.foldl
    (fun i p => if (q.reads.contains p.dst || q.writes.contains p.dst) then max i p.at_ else i) g.pipe.clk

/-- The link of a CALL or CALLR whose delay slot is this instruction of n parcels (R161). -/
def slotLink (e n : Nat) (s : State) : State :=
  s.modE e fun g =>
    match g.pipe.slot with
    | some sl =>
      match sl.link with
      | some (a, t) =>
        ((g.post (resW (.w a) (mkW (g.regs.pc + n)) t)).modPipe
          fun p => { p with slot := some { sl with link := none } }).landUpTo g.pipe.clk
      | none => g
    | none => g

def pcMod : Nat := 2 ^ 37

def setPc (e pc : Nat) (s : State) : State := s.modE e fun g => g.modRegs fun r => { r with pc := pc % pcMod }

/-- The end of a step (R598, R599): a halt becomes due after the unit that a step executes, or after the STC or
the 64th instruction of a reserved step. -/
def stepEnd (q : Iss) (s : State) : State :=
  let g := s.e q.e
  let s := s.modE q.e fun g => g.modRun fun r => { r with bpSkip := false }
  match g.run.stepMode with
  | .run => s
  | .step => if g.pipe.slot.isSome then s else haltDue q.e 3 0 s
  | .reserved n =>
    let isStc := match q.instr with
      | .stc .. => true
      | .stcD .. => true
      | _ => false
    if isStc || n ≤ 1 then haltDue q.e 8 0 s
    else s.modE q.e fun g => g.modRun fun r => { r with stepMode := .reserved (n - 1) }

/-- Fetch is redirected: both lines of the line buffer are read afresh (R182, R193). -/
def redirect (e : Nat) (s : State) : State := s.modE e fun g => g.modMem fun m => { m with lbuf := [] }

/-- The end of an instruction that has issued: counts (R213; `adm` as PCTL admitted the instruction, R214), repeats (R165,
R199), the way on, the end of a delay slot (R110, R187), and the results then due. -/
def finish (adm : Bool) (q : Iss) (s : State) : State :=
  let g := s.e q.e
  if g.pipe.exc.isSome || g.run.stall.isSome || g.run.stealing then s
  else
    let s := countIf adm q.e cPINS 1 s
    let rc := g.rc
    let s :=
      if rc ≠ 0 && q.rep then
        let s := s.modE q.e fun g => g.modRegs fun r =>
          let st := setFld r.st 24 35 (rc - 1)
          { r with st := if rc = 1 then setBit st 5 false else st }
        if rc = 1 then setPc q.e (g.regs.pc + q.len) (s.modE q.e fun g => g.modPipe fun p => { p with held := false }) else s
      else if q.seq then setPc q.e (g.regs.pc + q.len) s
      else s
    let s := match g.pipe.slot with
      | some sl =>
        if q.branch then s else
        let s := match sl.target with
          | some t => setPc q.e t s
          | none => s
        let s := if sl.target.isSome || decide (0 < sl.bubble) then redirect q.e s else s
        fixed q.e sl.bubble (s.modE q.e fun g => g.modPipe fun p => { p with slot := none })
      | none => s
    stepEnd q (landNow q.e s)

end Sys2Proof.Machine
end

