-- ==== Sys2Proof/Machine/Operands.lean ====
section
/-! DEFINITION. Operands: descriptors and the descriptor cache (R85 to R96), the checks of every access (R91),
fetch (R92), branch conditions (R160), and the issue of an instruction. -/

namespace Sys2Proof.Machine

/-! ### The physical space (R57, R59, R66) -/

/-- D: populated words of DRAM (R57, R65). -/
def dramWords (s : State) : Nat := 8 * s.cf rMEMCFG 5 35

/-- A populated word of the program region (R66, R67). -/
def inProgram (s : State) (a : Nat) : Bool :=
  let b := s.cf rPRGBND 0 17 * 65536
  decide (b ≤ a ∧ a < b + s.cf rPRGBND 18 35 * 65536 ∧ a < dramWords s)

/-- A word of the control window (R59). -/
def inCtl (a : Nat) : Bool := decide (ctlBase ≤ a ∧ a < ctlBase + 0o100000000)

/-- A word of the boot SRAM (R62). -/
def inBootSram (a : Nat) : Bool :=
  decide (ctlBase + bootSramBlk ≤ a ∧ a < ctlBase + bootSramBlk + 262144)

/-- A word of a locked window (R562, R563). -/
def lockedWin (s : State) (a : Nat) : Bool :=
  (List.range 16).any fun i =>
    s.cb (rLKW i) 0 && decide (s.cf (rLKW i + 1) 1 35 ≤ a ∧ a < s.cf (rLKW i + 1) 1 35 + (s.cg (rLKW i + 2)).toNat)

/-- A word of the primary mirror area (R357). -/
def inPrimary (s : State) (a : Nat) : Bool :=
  let b := s.cf rMIRBND 0 17 * 65536
  decide (b ≤ a ∧ a < b + s.cf rMIRBND 18 35 * 65536)

/-! ### Descriptors (R85 to R90) -/

/-- Address of the first word of descriptor i of tenant t (R85). -/
def descAddr (s : State) (t i : Nat) : Nat := s.cf rDTBASE 0 13 * 2097152 + 512 * t + 2 * i

/-- Types that R88 treats as absent. -/
def descAbsent (w1 : Word) : Bool := let t := fld w1 0 2; t = 0 || t = 6 || t = 7

/-- Size of a segment in words (R89). -/
def descSize (w1 : Word) : Nat :=
  (fld w1 22 35 + 1) * match fld w1 20 21 with
    | 0 => 1
    | 1 => 8
    | 2 => 512
    | _ => 32768

def tyData : Nat := 1
def tyCode : Nat := 2
def tyNear : Nat := 3
def tyDevice : Nat := 4
def tyMailbox : Nat := 5

/-- A segment selector (R78). -/
def mkSel (t i : Nat) : Word := place 0 11 t ||| place 12 19 i ||| place 20 20 1

def Engine.dcFind (g : Engine) (t i : Nat) : Option DcEntry :=
  g.mem.dcache.find? fun x => x.tenant = t && x.index = i

/-- Uses an entry of the descriptor cache: it becomes the most recently used (R96). -/
def Engine.dcTouch (g : Engine) (t i : Nat) : Engine :=
  match g.dcFind t i with
  | some x => g.modMem fun m =>
      { m with dcache := x :: m.dcache.filter fun y => !(y.tenant = t && y.index = i) }
  | none => g

/-- Enters a descriptor in front, replacing the least recently used of 32 (R96). -/
def Engine.dcEnter (g : Engine) (x : DcEntry) : Engine :=
  g.modMem fun m =>
    { m with dcache := (x :: m.dcache.filter fun y => !(y.tenant = x.tenant && y.index = x.index)).take 32 }

/-! ### The L1 instruction cache and the line buffer (R181 to R184) -/

/-- A line of the L1 instruction cache. -/
def Engine.l1iFind (g : Engine) (l : Nat) : Option L1I := g.mem.l1i.find? fun x => x.line = l

/-- Uses a line of the L1 instruction cache: it becomes the most recently used (R181). -/
def Engine.l1iTouch (g : Engine) (l : Nat) : Engine :=
  match g.l1iFind l with
  | some x => g.modMem fun m => { m with l1i := x :: m.l1i.filter fun y => y.line ≠ l }
  | none => g

/-- A line as fetch finds it: in the line buffer, else in the L1 instruction cache. -/
def Engine.fetchLine (g : Engine) (l : Nat) : Option L1I :=
  match g.mem.lbuf.find? fun x => x.line = l with
  | some x => some x
  | none => g.l1iFind l

/-- The lines that F1 reads for an instruction whose first word lies in line l (R182). -/
def Engine.lbufReads (g : Engine) (l : Nat) : List Nat :=
  match g.mem.lbuf with
  | x :: t => if x.line = l then [] else if t.any fun y => y.line = l then [l + 1] else [l, l + 1]
  | [] => [l, l + 1]

/-- The line buffer for an instruction whose first word lies in line l (R182): sequential fetch that enters the second line
drops the first and reads the line after it; at a redirect both lines are read. A line that misses stays out of the buffer. -/
def Engine.lbufAt (g : Engine) (l : Nat) : Engine :=
  let read := fun (g : Engine) (k : Nat) (kept : List L1I) =>
    (g.l1iTouch k).modMem fun m => { m with lbuf := kept ++ (g.l1iFind k).toList }
  match g.mem.lbuf with
  | x :: t =>
    if x.line = l then g
    else if t.any fun y => y.line = l then read g (l + 1) t
    else let h := read g l []; read h (l + 1) h.mem.lbuf
  | [] => let h := read g l []; read h (l + 1) h.mem.lbuf

/-- The first line of these words that fetch does not find. -/
def Engine.fetchMiss (g : Engine) (pas : List Nat) : Option Nat :=
  (pas.find? fun a => (g.fetchLine (a / 8)).isNone).map (· / 8)

/-- The index under which engine e looks up a code-type descriptor (R531). -/
def remapIdx (s : State) (e t i : Nat) : Nat :=
  let hit := (List.range 16).find? fun k =>
    let c := s.cg (rCREMAP k)
    bit c 0 && fld c 1 12 = t && fld c 13 20 = i
  match hit with
  | none => i
  | some k =>
    let g := s.e e
    let use := if t = 0 then s.cb (rENGGEN e) 0
      else g.act && (match g.run.entry with
        | some x => decide ((s.cg (rCREMAP k + 2)).toNat * 64000000000 + (s.cg (rCREMAP k + 3)).toNat ≤ x.rel)
        | none => false)
    if use then s.cf (rCREMAP k) 21 28 else i

/-! ### The checks of an access (R91) -/

inductive Acc where
  | fetch | load | store | ldr | stc
deriving DecidableEq, Repr

def Acc.isStore : Acc → Bool
  | .store => true
  | .stc => true
  | _ => false

/-- Check 4 of R91: the type admits the access. -/
def accType (acc : Acc) (typ lvl : Nat) : Bool :=
  match acc with
  | .fetch => typ == tyCode
  | .load => !(typ == tyCode && lvl < 2)
  | .store => !(typ == tyCode && lvl < 2)
  | _ => typ == tyData || typ == tyNear

/-- Check 5 of R91: the right for the access is set in the descriptor's second word. -/
def accRight (acc : Acc) (d1 : Word) : Bool :=
  match acc with
  | .fetch => bit d1 5
  | .load => bit d1 3
  | .ldr => bit d1 3
  | _ => bit d1 4

/-- What the checks answer: the type and physical words (near-store offsets for a near segment); a fault with its
vector, cause and FOFF; a store that is declared failed at once (R60; R358 faults instead); or the descriptor line to read. -/
inductive SegRes where
  | ok (typ : Nat) (pas : List Nat)
  | fault (vec cause : Nat) (off : Word)
  | failStore (off : Word)
  | need (line t i : Nat)
deriving DecidableEq, Repr

/-- The lowest level that reaches a near-store offset (R102). -/
def nearLevel (o : Nat) : Nat :=
  if o < 0o76000 then 0 else if o < 0o76400 then 2 else if o < 0o77400 then 1 else 2

/-- An access through a MIRROR descriptor to a word outside the primary area, in the region that the type reaches (R358). A word that
fails check 8 of R91 otherwise is answered as without MIRROR (DESIGN CHOICE, log entry 101). -/
def mirrorOut (s : State) (typ : Nat) (mirror : Bool) (a : Nat) : Bool :=
  decide (typ = tyData) && mirror && !inPrimary s a && !inCtl a && !inProgram s a && decide (a < dramWords s)

/-- Check 8 of R91 for one word: the cause of an address-decode fault (R60, R63, R69, R102, R358). -/
def regionCause (s : State) (typ lvl : Nat) (mirror : Bool) (a : Nat) : Option Nat :=
  let unassigned := if inCtl a then (ctlAcc (a - ctlBase)).isNone || dbgOnly (a - ctlBase) else decide (dramWords s ≤ a)
  if typ = tyNear then
    if 32768 ≤ a then some 2 else if lvl < nearLevel a then some 3 else none
  else if unassigned then some 1
  else if typ = tyData then
    if inCtl a || inProgram s a || mirrorOut s typ mirror a then some 2 else none
  else if typ = tyCode then if inProgram s a || inBootSram a then none else some 2
  else if inCtl a then none else some 2

/-- The first word of an access that fails a test, with the answer. -/
def firstBad {α : Type} (f : Nat → Option α) : List Nat → Option (Nat × α)
  | [] => none
  | x :: t => match f x with
    | some c => some (x, c)
    | none => firstBad f t

/-- The checks of R91 on n words at offset `off` through selector `sel`, at level `lvl` with TID.TENANT `tt`; a remapped code-type segment
is looked up under its new index (R531). -/
def segCheck (s : State) (e : Nat) (sel : Word) (lvl tt : Nat) (acc : Acc) (off : Int) (n : Nat) : SegRes :=
  let t := fld sel 0 11
  let i := remapIdx s e t (fld sel 12 19)
  let bad := fun c => SegRes.fault vSeg c (mkZ off)
  if !bit sel 20 then bad 1
  else match (s.e e).dcFind t i with
  | none => .need (descAddr s t i / 8) t i
  | some x =>
    let typ := fld x.d1 0 2
    if descAbsent x.d1 || fld x.d1 6 17 ≠ t then bad 2
    else if lvl < 2 && t ≠ tt then bad 3
    else if lvl < fld x.d1 18 19 then bad 4
    else if !accType acc typ lvl then bad 5
    else if !accRight acc x.d1 then bad 6
    else if (acc = .ldr || acc = .stc) && n = 2 && off % 2 ≠ 0 then bad 0o10
    else
      let ks := List.range n
      match firstBad (fun k =>
          if 0 ≤ off + k && off + k < descSize x.d1 then none else some ()) ks with
      | some (k, _) => .fault vSeg 7 (mkZ (off + k))
      | none =>
        let base := fld x.d0 1 35
        let pa := fun (k : Nat) => base + (off + k).toNat
        match firstBad (fun k => regionCause s typ lvl (bit x.d0 0) (pa k)) ks with
        | some (k, c) =>
          if acc.isStore && c ≠ 3 && !mirrorOut s typ (bit x.d0 0) (pa k) then .failStore (mkZ (off + k)) else .fault vAddr c (mkZ (off + k))
        | none => .ok typ (ks.map pa)

/-- The fetch checks of R92 on n parcels at the program counter, and the poison mark of the lines that fetch finds (R46). -/
def fetchCheck (s : State) (e n : Nat) : SegRes :=
  let g := s.e e
  let w0 := g.regs.pc / 2
  let w1 := (g.regs.pc + n - 1) / 2
  match segCheck s e g.regs.cs g.level g.tenant .fetch w0 (w1 - w0 + 1) with
  | .ok typ pas =>
    match firstBad (fun a => match g.fetchLine (a / 8) with
        | some x => if x.pois then some () else none
        | none => none) pas with
    | some (a, _) => .fault vLoss 2 (mkW (if a = pas.headD 0 then w0 else w1))
    | none => .ok typ pas
  | r => r

/-! ### Messages and descriptor reads -/

/-- Puts a message in flight (R327). -/
def send (m : Msg) (s : State) : State := { s with home := { s.home with net := s.home.net ++ [m] } }

/-- Whether a request of an agent for a line is already outstanding (R327). -/
def reqOut (s : State) (ag : Agent) (line : Nat) : Bool :=
  s.home.net.any (fun m => match m with
    | .req a l _ _ => a = ag && l = line
    | .data a l _ _ _ _ => a = ag && l = line
    | .ack a l _ => a = ag && l = line
    | .nak a l => a = ag && l = line
    | .fail a l _ => a = ag && l = line
    | .modN e l => .engine e = ag && l = line
    | .wbk e l _ _ => .engine e = ag && l = line
    | .wrt e l _ _ _ _ => .engine e = ag && l = line
    | _ => false)
  || s.home.txns.any (fun t => t.req = ag && t.line = line && t.kind ≠ .inval)
  || s.home.retry.any (fun t => t.req = ag && t.line = line)

/-- Sends a request unless one for the line is outstanding. -/
def request (ag : Agent) (line tenant : Nat) (k : ReqKind) (s : State) : State :=
  if reqOut s ag line then s else send (.req ag line tenant k) s

/-- The measured stall of a descriptor-cache miss: one line read, unrecorded (R95, R321). -/
def descStallAt (x : Bool) (e : Nat) (i : Instr) (line t ix seg : Nat) (s : State) : State :=
  request (.engine e) line (s.e e).tenant .rdc (stallAt x e i (.descr line t ix seg) s)

/-- The same for an instruction that has issued. -/
def descStall (e : Nat) (i : Instr) (line t ix seg : Nat) (s : State) : State := descStallAt true e i line t ix seg s

/-- The request of a read of F1 that misses the L1 instruction cache: one line, unrecorded (R183, R321). A miss that sends one is
counted in PMIF (R213). -/
def fetchReq (e l : Nat) (s : State) : State :=
  let s := if reqOut s (.engine e) l then s else count e cPMIF 1 s
  request (.engine e) l (s.e e).tenant .rdc s

/-- The line behind that of the instruction, where F1 reads it now and it misses (R182, R183). -/
def Engine.aheadMiss (g : Engine) (l : Nat) : Bool := (g.lbufReads l).contains (l + 1) && (g.l1iFind (l + 1)).isNone

/-- The reads of F1 for an instruction whose first word lies in line l: the line buffer is loaded, and a miss of the line behind
sends its request ahead of need (R182, R183). -/
def fetchRead (e l : Nat) (s : State) : State :=
  let miss := (s.e e).aheadMiss l
  let s := s.modE e fun g => g.lbufAt l
  if miss then
    fetchReq e (l + 1) (s.modE e fun g => g.modMem fun m =>
      { m with ahead := if m.ahead.contains (l + 1) then m.ahead else m.ahead ++ [l + 1] })
  else s

/-- The measured stall of a fetch whose line misses (R183). -/
def fetchStall (e : Nat) (i : Instr) (l : Nat) (s : State) : State := fetchReq e l (stallAt false e i (.fetch l) s)

/-- Acts on a failed check of an access of an instruction; a declared failed store makes its record (R242). -/
def failRec (e : Nat) (r : FailRec) (s : State) : State :=
  s.modE e fun g => g.modMem fun m => { m with fails := m.fails ++ [r] }

/-! ### Conditions (R160) -/

/-- The condition of code c on the flags of ST. -/
def condTrue (c : Nat) (st : Word) : Bool :=
  let z := bit st 6
  let n := bit st 7
  let k := bit st 8
  let v := bit st 9
  match c with
  | 0 => true
  | 1 => z
  | 2 => !z
  | 3 => n
  | 4 => !n
  | 5 => v
  | 6 => !v
  | 7 => k
  | 8 => !k
  | 9 => n != v
  | 10 => n == v
  | 11 => z || (n != v)
  | 12 => !z && (n == v)
  | 13 => !k && !z
  | 14 => k || z
  | _ => bit st 10

/-! ### Issue -/

/-- An instruction stands in EX: its body, and its end. -/
def execute (q : Iss) (body : State → State) (s : State) : State := finish (counting s q.e) q (body s)

/-- An instruction has been fetched: a repeat of count 0 skips it (R166); an illegal-instruction or privilege fault; the waits
for registers and the long-op unit (R194, R197); then it issues. -/
def decoded (q : Iss) (body : State → State) (s : State) : State :=
  let g := s.e q.e
  let s := s.modE q.e fun g => g.dcTouch (fld g.regs.cs 0 11) (remapIdx s q.e (fld g.regs.cs 0 11) (fld g.regs.cs 12 19))
  if g.pipe.skip then
    landNow q.e (setPc q.e (g.regs.pc + q.len) (fixed q.e 1
      (s.modE q.e fun g => g.modPipe fun p => { p with skip := false })))
  else match illCause q g with
  | some c => illegal q.e c s
  | none =>
    if g.level < q.need then preciseFault q.e vPriv 1 0 0 s
    else
      let t0 := hazardAt q g
      let t := acceptAt q.unit t0 g.pipe.pend
      let s := waitTo q.e t (count q.e cPILK (t0 - g.pipe.clk) s)
      if (boundaryExc s q.e).isSome then s else execute q body s

/-- The fetch of an instruction (R92, R177, R182, R183): its checks, the line buffer, a stall where a line of it misses. -/
def fetched (q : Iss) (body : State → State) (s : State) : State :=
  match fetchCheck s q.e q.len with
  | .fault v c off => preciseFault q.e v c 8 off s
  | .failStore off => preciseFault q.e vAddr 2 8 off s
  | .need l t i => descStallAt false q.e q.instr l t i 8 s
  | .ok _ pas =>
    let s := fetchRead q.e (pas.headD 0 / 8) s
    match (s.e q.e).fetchMiss pas with
    | some l => fetchStall q.e q.instr l s
    | none => decoded q body (if (s.e q.e).rc = 0 then s else s.modE q.e fun g => g.modPipe fun p => { p with held := true })

/-- Issues an instruction. One that a stall held in EX goes on there (R180). Else what a boundary takes comes first, then a
breakpoint, the fetch, and what follows it. A further execution of a repeated instruction is not fetched anew: DC holds it (R199). -/
def issue (q : Iss) (body : State → State) (s : State) : State :=
  if !canIssue (s.e q.e) then s
  else if inEx (s.e q.e) then execute q body s
  else if (boundaryExc s q.e).isSome then s
  else match bpMatch s q.e (if q.branch then q.len else 0) with
  | some n => haltDue q.e 4 n s
  | none =>
    if (s.e q.e).pipe.held && (s.e q.e).rc ≠ 0 then decoded q body s else fetched q body (slotLink q.e q.len s)

/-- A command on engine e where the device has engines 0 to 143 (R16). -/
def onEngine (e : Nat) (ok : Bool) (r : State) : Host.Outcome State Fault Refusal :=
  if e < 144 && ok then .next r else .fault .noSuchUnit

/-- An unused field must be zero (R129). -/
def unused (u : Nat) : Option Nat := if u = 0 then none else some 2

/-- A pair field must be even (R128). -/
def pairOdd (n : Nat) : Option Nat := if n % 2 = 0 then none else some 3

/-- The smaller of two causes. -/
def orCause : Option Nat → Option Nat → Option Nat
  | some a, some b => some (min a b)
  | some a, none => some a
  | none, b => b

end Sys2Proof.Machine
end

