-- ==== Sys2Proof/Machine/Check.lean ====
section
/-! DEFINITION. The check of microwords and what a failing one does (R248, R254, R262, R263), machine checks (R233), the record of a
failed unit (R514), and the release of a halted engine (R598 to R603). -/

namespace Sys2Proof.Machine

/-- Sixty-fourths of a nanosecond in a microsecond and in a second. -/
def usU : Nat := 64000
def secU : Nat := 64000000000

/-- SEC of device time. -/
def nowSec (s : State) : Nat := s.net.devTime / secU

/-! ### Machine checks -/

/-- Bit 0 of IPEND is 1 while any bit of MCAUSE is 1 (R233). -/
def mchkSync (e : Nat) (s : State) : State := s.csf (rIPEND e) 0 0 (if s.cf (rMCAUSE e) 0 5 = 0 then 0 else 1)

/-- A halted engine is released (R598, R600, R601): it goes on at RPAR, the written debug registers take effect, a step begins
where DCTL.STEP says so, and a deadline held under PFRZ becomes the release time plus what remained. -/
def releaseEngine (e : Nat) (cause : Option Nat) (s : State) : State :=
  let now := s.net.devTime
  s.modE e fun g =>
    if !g.run.halted then g
    else
      let rp := fld g.regs.dstat 8 35
      let ds := setBit g.regs.dstat 0 false
      let g := g.modRegs fun r =>
        { r with pc := rp, dstat := match cause with
            | some c => setFld ds 1 4 c
            | none => ds }
      let g := { g with eff := { g.eff with dbg := g.regs.dbg } }
      g.modRun fun r =>
        { r with halted := false, haltGrant := 0, bpSkip := true, quiet := now + 64 * usU,
                 stepMode := if bit (g.dbgE 0o60) 0 then .step else .run, dlHeld := none,
                 entry := match r.dlHeld with
                   | some d => r.entry.map fun x => { x with deadline := now + d }
                   | none => r.entry }

/-- An engine halted under a grant is released with this cause (R603). -/
def grantRelease (e cause : Nat) (s : State) : State :=
  if (s.e e).run.haltGrant = 0 then s else releaseEngine e (some cause) s

/-- Sets a cause of a machine check (R233); an engine halted under a grant is released (R603). -/
def mcause (e i : Nat) (s : State) : State := grantRelease e 10 (mchkSync e (s.csf (rMCAUSE e) i i 1))

/-! ### Failed units -/

/-- FLTREC (R514): kind as in UNIT RETIRE, unit, cause, and SEC at detection; NRUN and DUR begin at 0. -/
def rFLTREC : Nat := mgmtBlk + 0o1404012

def fltRec (kind unit cause : Nat) (s : State) : State :=
  let s := (s.cs rFLTREC (place 0 2 kind ||| place 3 10 unit ||| place 11 16 cause)).cs (rFLTREC + 1) (mkW (nowSec s))
  { s with wel := { s.wel with fltAt := s.net.devTime } }

/-- A unit failure of class `cause` (R513) is detected: its recovery is due. -/
def failEngine (e cause : Nat) (s : State) : State :=
  let s := fltRec 0 e cause s
  { s with wel := { s.wel with failed := s.wel.failed ++ [{ e := e, cause := cause }] } }

/-! ### The microword (R248, R262) -/

/-- Field of a microword, bit 0 the most significant. -/
def mfld (m : Microword) (a b : Nat) : Nat := m.toNat / 2 ^ (95 - b) % 2 ^ (b - a + 1)

/-- One step of the division of R262: the remainder so far, times x, plus a coefficient. -/
def crcBit (r : Nat) (b : Bool) : Nat :=
  let v := 2 * r + b.toNat
  if 4096 ≤ v then Nat.xor (v - 4096) 0o4017 else v

/-- CHK of bits 0 to 83 (R262). -/
def microChk (m : Microword) : Nat :=
  let r := (List.range 84).foldl (fun r k => crcBit r (mfld m k k = 1)) 0
  (List.range 12).foldl (fun r _ => crcBit r false) r

/-- Encodings that R254 treats as a failing check; `vendor` says that the word lies in the vendor region. -/
def microReserved (vendor : Bool) (m : Microword) : Bool :=
  decide (10 ≤ mfld m 0 3) || decide (13 ≤ mfld m 15 18) || mfld m 19 22 = 15 || decide (9 ≤ mfld m 38 41)
    || (!vendor && (decide (4 ≤ mfld m 38 41) || mfld m 46 49 ≠ 0))

/-- A microword passes its check (R254, R262). -/
def microOk (vendor : Bool) (m : Microword) : Bool := microChk m = mfld m 84 95 && !microReserved vendor m

/-! ### The vendor routines (R245, R258, R263) -/

/-- The check of a microword failed within an instruction (R263): a measured stall, MCAUSE.CSTORE and CSERR; a second
failure of the same word within the instruction retires the engine. -/
def microFail (e addr : Nat) (i : Instr) (s : State) : State :=
  let s := stallOn e i (.micro addr) s
  let s := mcause e 0 ((s.csf (rCSERR e) 0 11 addr).csat (rCSERR e) 12 23)
  if (s.e e).pipe.microFails.contains addr then failEngine e 5 s
  else s.modE e fun g => g.modPipe fun p => { p with microFails := p.microFails ++ [addr] }

/-- The routines of R258: which one carries out an instruction, and how many microwords it takes; those of the context switch after a
claim are counted with STEAL. -/
def vendorRoutine (hit : Bool) : Instr → Nat × Nat
  | .segld .. => (0, if hit then 12 else 20)
  | .fjmp .. => (1, if hit then 12 else 20)
  | .fcall .. => (2, if hit then 12 else 20)
  | .fret .. => (3, if hit then 12 else 20)
  | .seginv .. => (4, 8)
  | .commit .. => (5, 24)
  | .yieldI .. => (6, 12)
  | .steal .. => (7, 96)
  | _ => (8, 0)

/-- The first microword of a routine whose check fails. The places of the routines in the vendor region are not in the spec: any place
(log entry 44). -/
def vendorBad (s : State) (e : Nat) (r : Nat × Nat) : Option Nat :=
  ((List.range r.2).map fun k => Config.vendorAddr r.1 k % 1792).find? fun a => !microOk true (tget 0 (s.e e).cstore.vendor a)

/-- A microcoded instruction: each microword is checked before it acts (R263), then the body. -/
def microcoded (e : Nat) (i : Instr) (hit : Bool) (body : State → State) (s : State) : State :=
  let s := if (s.e e).run.resuming.isSome then s else s.modE e fun g => g.modPipe fun p => { p with microFails := [] }
  match vendorBad s e (vendorRoutine hit i) with
  | some a => microFail e a i s
  | none => body s

end Sys2Proof.Machine
end

