-- ==== Sys2Proof/Machine/Flags.lean ====
section
/-! DEFINITION. The integer results and their flags (R136 to R142). -/

namespace Sys2Proof.Machine

/-- What an instruction of the integer kind gives: the word written to its destination, if any; the flags under
`m` become those of `v`; those of `o` are set. -/
structure AluR where
  res : Option Word
  m : Word
  v : Word
  o : Word
deriving DecidableEq, Repr

def mZN : Word := stZ ||| stN
def mZNC : Word := stZ ||| stN ||| stC
def mZNV : Word := stZ ||| stN ||| stV
def mZNCV : Word := stZ ||| stN ||| stC ||| stV

/-- Z and N of a result (R137). -/
def znOf (r : Word) : Word := bitAt 6 (r == 0) ||| bitAt 7 (bit r 0)

/-- The signed range of a word (R33). -/
def inRange (z : Int) : Bool := decide (-2 ^ 35 ≤ z ∧ z ≤ 2 ^ 35 - 1)

/-- sat of the pseudocode. -/
def satZ (z : Int) : Int := min (max z (-2 ^ 35)) (2 ^ 35 - 1)

/-- A result with no flag. -/
def aluPlain (r : Word) : AluR := { res := some r, m := 0, v := 0, o := 0 }

/-- A result with Z and N. -/
def aluZN (r : Word) : AluR := { res := some r, m := mZN, v := znOf r, o := 0 }

/-- A result with Z, N, C and V. -/
def aluZNCV (r : Word) (c v : Bool) : AluR :=
  { res := some r, m := mZNCV, v := znOf r ||| bitAt 8 c ||| bitAt 9 v, o := 0 }

/-- A saturated result with Z, N and the sticky Q (satq). -/
def aluSat (z : Int) : AluR :=
  let r := mkZ (satZ z)
  { res := some r, m := mZN, v := znOf r, o := bitAt 10 (!inRange z) }

/-- The same without a written result (CMP, TST). -/
def AluR.flagsOnly (a : AluR) : AluR := { a with res := none }

/-- ADD and ADC (R136, R137). -/
def addR (x y : Word) (c : Bool) : AluR :=
  let u := x.toNat + y.toNat + c.toNat
  aluZNCV (mkW u) (decide (2 ^ 36 ≤ u)) (!inRange (sgn x + sgn y + c.toNat))

/-- SUB, SBC, NEG and CMP (R136, R137). -/
def subR (x y : Word) (c : Bool) : AluR :=
  let d : Int := (x.toNat : Int) - y.toNat - c.toNat
  aluZNCV (mkZ d) (decide (d < 0)) (!inRange (sgn x - sgn y - c.toNat))

/-- A shift result with Z, N and C. -/
def aluShift (r : Word) (c : Bool) : AluR := { res := some r, m := mZNC, v := znOf r ||| bitAt 8 c, o := 0 }

/-- SHL by n (R137, R138). -/
def shlR (x : Word) (n : Nat) : AluR :=
  aluShift (mkW (x.toNat * 2 ^ min n 36)) (if n = 0 ∨ 36 < n then false else bit x (n - 1))

/-- SHR by n. -/
def shrR (x : Word) (n : Nat) : AluR :=
  aluShift (mkW (x.toNat / 2 ^ min n 36)) (if n = 0 ∨ 36 < n then false else bit x (36 - n))

/-- SAR by n. -/
def sarR (x : Word) (n : Nat) : AluR :=
  aluShift (mkZ (sgn x / 2 ^ min n 36)) (if n = 0 then false else if 36 ≤ n then bit x 0 else bit x (36 - n))

/-- ROL by n modulo 36. -/
def rolR (x : Word) (n : Nat) : AluR := aluZN (x.rotateLeft (n % 36))

/-- ABS (R136, R137): V for the source -2^35. -/
def absR (y : Word) : AluR :=
  let r := mkZ (sgn y).natAbs
  { res := some r, m := mZNV, v := znOf r ||| bitAt 9 (decide (sgn y = -2 ^ 35)), o := 0 }

/-- Leading zero bits of a word, 0 to 36. -/
def clzW (y : Word) : Nat := if y = 0 then 36 else 35 - Nat.log2 y.toNat

/-- CLZ (R136): writes Z alone. -/
def clzR (y : Word) : AluR :=
  let r := mkW (clzW y)
  { res := some r, m := stZ, v := bitAt 6 (r == 0), o := 0 }

/-- PACK (R136, R138). -/
def packR (y : Word) : AluR :=
  aluPlain (mkW ((List.range 4).foldl (fun a n => a * 512 + fld y (4 + 8 * n) (11 + 8 * n)) 0))

/-- UNPK (R136, R138). -/
def unpkR (y : Word) : AluR :=
  aluPlain (mkW ((List.range 4).foldl (fun a n => a * 256 + fld y (9 * n + 1) (9 * n + 8)) 0))

/-- TSTB (R139). -/
def tstbR (x : Word) (i : Nat) : AluR := { res := none, m := stZ, v := bitAt 6 (!bit x i), o := 0 }

/-- EXTP by n of the product (R142). -/
def extpR (p : Nat) (n : Nat) : AluR :=
  let z := sgn72 p
  aluSat ((z + (if n = 0 then 0 else 2 ^ (n - 1))) / 2 ^ n)

/-- The products of R140 with PH:PL in p: the new 72-bit value and whether MAC.S limited it. -/
def mulR (x y : Word) : Nat := ((sgn x * sgn y) % 2 ^ 72).toNat
def muluR (x y : Word) : Nat := x.toNat * y.toNat
def macR (p : Nat) (x y : Word) : Nat := ((sgn72 p + sgn x * sgn y) % 2 ^ 72).toNat
def macsR (p : Nat) (x y : Word) : Nat × Bool :=
  let z := sgn72 p + sgn x * sgn y
  let l := min (max z (-2 ^ 71)) (2 ^ 71 - 1)
  ((l % 2 ^ 72).toNat, decide (z ≠ l))

end Sys2Proof.Machine
end

