-- ==== Sys2Proof/Machine/Integer.lean ====
section
/-! DEFINITION. The integer instructions: short format (R136 to R138), immediate (R139), multiply (R140, R141) and
EXTP (R142). Each is one call of a shared operation with its own result. -/

namespace Sys2Proof.Machine

/-- The results of an integer instruction that issues at the issue clock: W`a` and the flags, at distance d. -/
def aluPost (e a d : Nat) (r : AluR) (s : State) : State :=
  s.modE e fun g =>
    let t := g.pipe.clk + d
    let g := match r.res with
      | some v => g.post (resW (.w a) v t)
      | none => g
    if r.m = 0 && r.o = 0 then g else g.post (resF r.m r.v r.o t)

/-- An integer instruction of one cycle and distance 1: `f` gives its result from the engine at issue. `ws` says
whether it writes W`a`, `fl` whether it writes flags. -/
def aluI (i : Instr) (e len a : Nat) (ill : Option Nat) (rds : List Dst) (ws fl : Bool)
    (f : Engine → AluR) (s : State) : State :=
  issue { e := e, instr := i, len := len, ill := ill, slotOk := true, rep := true, branch := false, need := 0,
          reads := rds, writes := (if ws then [.w a] else []) ++ (if fl then [.st] else []), unit := .none,
          seq := true }
    (fun s => fixed e 1 (aluPost e a 1 (f (s.e e)) s)) s

/-- A short-format integer instruction on x = W`a`, y = W`b` and ST.C (R136). -/
def shortI (i : Instr) (e a b : Nat) (rx rst ws fl : Bool) (f : Word → Word → Bool → AluR) (s : State) : State :=
  aluI i e 1 a none ((if rx then [.w a] else []) ++ [.w b] ++ (if rst then [.st] else [])) ws fl
    (fun g => f (g.w a) (g.w b) (bit g.regs.st 8)) s

/-- Operand fields of the short format. -/
def okAB (a b : Nat) : Bool := decide (a < 16 ∧ b < 16)

/-- Operand fields of the short-immediate format. -/
def okAI (a imm : Nat) : Bool := decide (a < 16 ∧ imm < 256)

/-- Operand fields of the long format. -/
def okLong (a b c imm : Nat) : Bool := decide (a < 16 ∧ b < 16 ∧ c < 16 ∧ imm < 262144)

/-- imm8 and imm18 sign-extended (R130), as words. -/
def sx8 (imm : Nat) : Word := mkZ (sext 8 imm)
def sx18 (imm : Nat) : Word := mkZ (sext 18 imm)

/-! ### Short format (R136) -/

/-- MOV (R136). -/
def execMov (e a b : Nat) (s : State) : Host.Outcome State Fault Refusal :=
  onEngine e (okAB a b)
    (shortI (.mov e a b) e a b false false true false (fun _ y _ => aluPlain y) s)

/-- ADD (R136). -/
def execAdd (e a b : Nat) (s : State) : Host.Outcome State Fault Refusal :=
  onEngine e (okAB a b)
    (shortI (.add e a b) e a b true false true true (fun x y _ => addR x y false) s)

/-- SUB (R136). -/
def execSub (e a b : Nat) (s : State) : Host.Outcome State Fault Refusal :=
  onEngine e (okAB a b)
    (shortI (.sub e a b) e a b true false true true (fun x y _ => subR x y false) s)

/-- ADC (R136). -/
def execAdc (e a b : Nat) (s : State) : Host.Outcome State Fault Refusal :=
  onEngine e (okAB a b)
    (shortI (.adc e a b) e a b true true true true (fun x y c => addR x y c) s)

/-- SBC (R136). -/
def execSbc (e a b : Nat) (s : State) : Host.Outcome State Fault Refusal :=
  onEngine e (okAB a b)
    (shortI (.sbc e a b) e a b true true true true (fun x y c => subR x y c) s)

/-- AND (R136). -/
def execAnd (e a b : Nat) (s : State) : Host.Outcome State Fault Refusal :=
  onEngine e (okAB a b)
    (shortI (.and e a b) e a b true false true true (fun x y _ => aluZN (x &&& y)) s)

/-- OR (R136). -/
def execOr (e a b : Nat) (s : State) : Host.Outcome State Fault Refusal :=
  onEngine e (okAB a b)
    (shortI (.or e a b) e a b true false true true (fun x y _ => aluZN (x ||| y)) s)

/-- XOR (R136). -/
def execXor (e a b : Nat) (s : State) : Host.Outcome State Fault Refusal :=
  onEngine e (okAB a b)
    (shortI (.xor e a b) e a b true false true true (fun x y _ => aluZN (x ^^^ y)) s)

/-- ANDN (R136). -/
def execAndn (e a b : Nat) (s : State) : Host.Outcome State Fault Refusal :=
  onEngine e (okAB a b)
    (shortI (.andn e a b) e a b true false true true (fun x y _ => aluZN (x &&& ~~~ y)) s)

/-- NOT (R136). -/
def execNot (e a b : Nat) (s : State) : Host.Outcome State Fault Refusal :=
  onEngine e (okAB a b)
    (shortI (.not e a b) e a b false false true true (fun _ y _ => aluZN (~~~ y)) s)

/-- NEG (R136). -/
def execNeg (e a b : Nat) (s : State) : Host.Outcome State Fault Refusal :=
  onEngine e (okAB a b)
    (shortI (.neg e a b) e a b false false true true (fun _ y _ => subR 0 y false) s)

/-- CMP (R136). -/
def execCmp (e a b : Nat) (s : State) : Host.Outcome State Fault Refusal :=
  onEngine e (okAB a b)
    (shortI (.cmp e a b) e a b true false false true (fun x y _ => (subR x y false).flagsOnly) s)

/-- TST (R136). -/
def execTst (e a b : Nat) (s : State) : Host.Outcome State Fault Refusal :=
  onEngine e (okAB a b)
    (shortI (.tst e a b) e a b true false false true (fun x y _ => (aluZN (x &&& y)).flagsOnly) s)

/-- SHL (R136). -/
def execShl (e a b : Nat) (s : State) : Host.Outcome State Fault Refusal :=
  onEngine e (okAB a b)
    (shortI (.shl e a b) e a b true false true true (fun x y _ => shlR x y.toNat) s)

/-- SHR (R136). -/
def execShr (e a b : Nat) (s : State) : Host.Outcome State Fault Refusal :=
  onEngine e (okAB a b)
    (shortI (.shr e a b) e a b true false true true (fun x y _ => shrR x y.toNat) s)

/-- SAR (R136). -/
def execSar (e a b : Nat) (s : State) : Host.Outcome State Fault Refusal :=
  onEngine e (okAB a b)
    (shortI (.sar e a b) e a b true false true true (fun x y _ => sarR x y.toNat) s)

/-- ROL (R136). -/
def execRol (e a b : Nat) (s : State) : Host.Outcome State Fault Refusal :=
  onEngine e (okAB a b)
    (shortI (.rol e a b) e a b true false true true (fun x y _ => rolR x y.toNat) s)

/-- ADD.S (R136). -/
def execAddS (e a b : Nat) (s : State) : Host.Outcome State Fault Refusal :=
  onEngine e (okAB a b)
    (shortI (.addS e a b) e a b true false true true (fun x y _ => aluSat (sgn x + sgn y)) s)

/-- SUB.S (R136). -/
def execSubS (e a b : Nat) (s : State) : Host.Outcome State Fault Refusal :=
  onEngine e (okAB a b)
    (shortI (.subS e a b) e a b true false true true (fun x y _ => aluSat (sgn x - sgn y)) s)

/-- NEG.S (R136). -/
def execNegS (e a b : Nat) (s : State) : Host.Outcome State Fault Refusal :=
  onEngine e (okAB a b)
    (shortI (.negS e a b) e a b false false true true (fun _ y _ => aluSat (0 - sgn y)) s)

/-- ABS (R136). -/
def execAbs (e a b : Nat) (s : State) : Host.Outcome State Fault Refusal :=
  onEngine e (okAB a b)
    (shortI (.abs e a b) e a b false false true true (fun _ y _ => absR y) s)

/-- ABS.S (R136). -/
def execAbsS (e a b : Nat) (s : State) : Host.Outcome State Fault Refusal :=
  onEngine e (okAB a b)
    (shortI (.absS e a b) e a b false false true true (fun _ y _ => aluSat (sgn y).natAbs) s)

/-- MIN (R136). -/
def execMin (e a b : Nat) (s : State) : Host.Outcome State Fault Refusal :=
  onEngine e (okAB a b)
    (shortI (.min e a b) e a b true false true true (fun x y _ => aluZN (if sgn x ≤ sgn y then x else y)) s)

/-- MAX (R136). -/
def execMax (e a b : Nat) (s : State) : Host.Outcome State Fault Refusal :=
  onEngine e (okAB a b)
    (shortI (.max e a b) e a b true false true true (fun x y _ => aluZN (if sgn x ≤ sgn y then y else x)) s)

/-- MINU (R136). -/
def execMinu (e a b : Nat) (s : State) : Host.Outcome State Fault Refusal :=
  onEngine e (okAB a b)
    (shortI (.minu e a b) e a b true false true true (fun x y _ => aluZN (if x.toNat ≤ y.toNat then x else y)) s)

/-- MAXU (R136). -/
def execMaxu (e a b : Nat) (s : State) : Host.Outcome State Fault Refusal :=
  onEngine e (okAB a b)
    (shortI (.maxu e a b) e a b true false true true (fun x y _ => aluZN (if x.toNat ≤ y.toNat then y else x)) s)

/-- PACK (R136). -/
def execPack (e a b : Nat) (s : State) : Host.Outcome State Fault Refusal :=
  onEngine e (okAB a b)
    (shortI (.pack e a b) e a b false false true false (fun _ y _ => packR y) s)

/-- UNPK (R136). -/
def execUnpk (e a b : Nat) (s : State) : Host.Outcome State Fault Refusal :=
  onEngine e (okAB a b)
    (shortI (.unpk e a b) e a b false false true false (fun _ y _ => unpkR y) s)

/-- CLZ (R136). -/
def execClz (e a b : Nat) (s : State) : Host.Outcome State Fault Refusal :=
  onEngine e (okAB a b)
    (shortI (.clz e a b) e a b false false true true (fun _ y _ => clzR y) s)

/-! ### Immediate format (R139) -/

/-- MOVQ (R139). -/
def execMovq (e a imm : Nat) (s : State) : Host.Outcome State Fault Refusal :=
  onEngine e (okAI a imm)
    (aluI (.movq e a imm) e 1 a none [] true false
      (fun _ => aluPlain (sx8 imm)) s)

/-- ADDQ (R139). -/
def execAddq (e a imm : Nat) (s : State) : Host.Outcome State Fault Refusal :=
  onEngine e (okAI a imm)
    (aluI (.addq e a imm) e 1 a none [.w a] true true
      (fun g => addR (g.w a) (sx8 imm) false) s)

/-- CMPQ (R139). -/
def execCmpq (e a imm : Nat) (s : State) : Host.Outcome State Fault Refusal :=
  onEngine e (okAI a imm)
    (aluI (.cmpq e a imm) e 1 a none [.w a] false true
      (fun g => (subR (g.w a) (sx8 imm) false).flagsOnly) s)

/-- SHLQ (R139). -/
def execShlq (e a imm : Nat) (s : State) : Host.Outcome State Fault Refusal :=
  onEngine e (okAI a imm)
    (aluI (.shlq e a imm) e 1 a none [.w a] true true
      (fun g => shlR (g.w a) imm) s)

/-- SHRQ (R139). -/
def execShrq (e a imm : Nat) (s : State) : Host.Outcome State Fault Refusal :=
  onEngine e (okAI a imm)
    (aluI (.shrq e a imm) e 1 a none [.w a] true true
      (fun g => shrR (g.w a) imm) s)

/-- SARQ (R139). -/
def execSarq (e a imm : Nat) (s : State) : Host.Outcome State Fault Refusal :=
  onEngine e (okAI a imm)
    (aluI (.sarq e a imm) e 1 a none [.w a] true true
      (fun g => sarR (g.w a) imm) s)

/-- ROLQ (R139). -/
def execRolq (e a imm : Nat) (s : State) : Host.Outcome State Fault Refusal :=
  onEngine e (okAI a imm)
    (aluI (.rolq e a imm) e 1 a none [.w a] true true
      (fun g => rolR (g.w a) imm) s)

/-- TSTB (R139). -/
def execTstb (e a imm : Nat) (s : State) : Host.Outcome State Fault Refusal :=
  onEngine e (okAI a imm)
    (aluI (.tstb e a imm) e 1 a (if 35 < imm then some 7 else none) [.w a] false true
      (fun g => tstbR (g.w a) imm) s)

/-- LDI (R139). -/
def execLdi (e a u imm : Nat) (s : State) : Host.Outcome State Fault Refusal :=
  onEngine e (decide (a < 16 ∧ u < 256 ∧ imm < 262144))
    (aluI (.ldi e a u imm) e 2 a (unused u) [] true false (fun _ => aluPlain (sx18 imm)) s)

/-- LUI (R139). -/
def execLui (e a u imm : Nat) (s : State) : Host.Outcome State Fault Refusal :=
  onEngine e (decide (a < 16 ∧ u < 256 ∧ imm < 262144))
    (aluI (.lui e a u imm) e 2 a (unused u) [] true false (fun _ => aluPlain (mkW (imm * 2 ^ 18))) s)

/-- ADDI (R139). -/
def execAddi (e a b u imm : Nat) (s : State) : Host.Outcome State Fault Refusal :=
  onEngine e (okLong a b u imm)
    (aluI (.addi e a b u imm) e 2 a (unused u) [.w b] true true (fun g => addR (g.w b) (sx18 imm) false) s)

/-- ADDI.S (R139). -/
def execAddiS (e a b u imm : Nat) (s : State) : Host.Outcome State Fault Refusal :=
  onEngine e (okLong a b u imm)
    (aluI (.addiS e a b u imm) e 2 a (unused u) [.w b] true true (fun g => aluSat (sgn (g.w b) + sext 18 imm)) s)

/-- ANDI (R139). -/
def execAndi (e a b u imm : Nat) (s : State) : Host.Outcome State Fault Refusal :=
  onEngine e (okLong a b u imm)
    (aluI (.andi e a b u imm) e 2 a (unused u) [.w b] true true (fun g => aluZN (g.w b &&& mkW imm)) s)

/-- ORI (R139). -/
def execOri (e a b u imm : Nat) (s : State) : Host.Outcome State Fault Refusal :=
  onEngine e (okLong a b u imm)
    (aluI (.ori e a b u imm) e 2 a (unused u) [.w b] true true (fun g => aluZN (g.w b ||| mkW imm)) s)

/-- XORI (R139). -/
def execXori (e a b u imm : Nat) (s : State) : Host.Outcome State Fault Refusal :=
  onEngine e (okLong a b u imm)
    (aluI (.xori e a b u imm) e 2 a (unused u) [.w b] true true (fun g => aluZN (g.w b ^^^ mkW imm)) s)

/-- CMPI (R139). -/
def execCmpi (e a u imm : Nat) (s : State) : Host.Outcome State Fault Refusal :=
  onEngine e (decide (a < 16 ∧ u < 256 ∧ imm < 262144))
    (aluI (.cmpi e a u imm) e 2 a (unused u) [.w a] false true (fun g => (subR (g.w a) (sx18 imm) false).flagsOnly) s)

/-! ### Multiply (R140, R141) and EXTP (R142) -/

/-- Sets PH and PL to a 72-bit value at distance 4, and the value that program order gives (R141). -/
def productPost (e n : Nat) (s : State) : State :=
  s.modE e fun g =>
    let t := g.pipe.clk + 4
    (g.posts [resW .ph (hiW n) t, resW .pl (loW n) t]).modPipe fun p => { p with accH := hiW n, accL := loW n }

/-- A multiply instruction: the multiplier never holds it for what it writes (R196). `q` says whether it writes Q
(MAC.S); that result lands whether or not Q is set, so that the interlocks of a path do not depend on data. -/
def mulI (i : Instr) (e a b : Nat) (q : Bool) (f : Nat → Word → Word → Nat × Bool) (s : State) : State :=
  issue { e := e, instr := i, len := 1, ill := none, slotOk := true, rep := true, branch := false, need := 0,
          reads := [.w a, .w b], writes := [], unit := .none, seq := true }
    (fun s =>
      let g := s.e e
      let r := f (dbl g.pipe.accH g.pipe.accL) (g.w a) (g.w b)
      let s := productPost e r.1 s
      fixed e 1 (if q then s.modE e fun g => g.post (resF 0 0 (bitAt 10 r.2) (g.pipe.clk + 4)) else s)) s

/-- MUL (R140). -/
def execMul (e a b : Nat) (s : State) : Host.Outcome State Fault Refusal :=
  onEngine e (okAB a b) (mulI (.mul e a b) e a b false (fun _ x y => (mulR x y, false)) s)

/-- MULU (R140). -/
def execMulu (e a b : Nat) (s : State) : Host.Outcome State Fault Refusal :=
  onEngine e (okAB a b) (mulI (.mulu e a b) e a b false (fun _ x y => (muluR x y, false)) s)

/-- MAC (R140, R141). -/
def execMac (e a b : Nat) (s : State) : Host.Outcome State Fault Refusal :=
  onEngine e (okAB a b) (mulI (.mac e a b) e a b false (fun p x y => (macR p x y, false)) s)

/-- MAC.S (R140, R141). -/
def execMacS (e a b : Nat) (s : State) : Host.Outcome State Fault Refusal :=
  onEngine e (okAB a b) (mulI (.macS e a b) e a b true (fun p x y => macsR p x y) s)

/-- EXTP (R142): reads PH and PL under R108 and R109. -/
def execExtp (e a imm : Nat) (s : State) : Host.Outcome State Fault Refusal :=
  onEngine e (okAI a imm)
    (aluI (.extp e a imm) e 1 a (if 71 < imm then some 7 else none) [.ph, .pl] true true
      (fun g => extpR (dbl g.regs.ph g.regs.pl) imm) s)

end Sys2Proof.Machine
end

