-- ==== Sys2Proof/Machine/Float.lean ====
section
/-! DEFINITION. The floating formats F36 and F72 and their operations (R143 to R153), computed exactly on natural
numbers and rounded once (R146). An encoding is a natural number of 36 or 72 bits. -/

namespace Sys2Proof.Machine

/-- A floating format (R143): exponent and fraction bits. -/
structure Fmt where
  eb : Nat
  fb : Nat
deriving DecidableEq, Repr

def f36 : Fmt := { eb := 9, fb := 26 }
def f72 : Fmt := { eb := 12, fb := 59 }

def Fmt.width (f : Fmt) : Nat := 1 + f.eb + f.fb
def Fmt.bias (f : Fmt) : Nat := 2 ^ (f.eb - 1) - 1
def Fmt.emax (f : Fmt) : Nat := 2 ^ f.eb - 1

/-- The classes of R144. A finite value is (-1)^s × m × 2^e with m not zero. -/
inductive FVal where
  | nan (signalling : Bool)
  | inf (s : Bool)
  | zero (s : Bool)
  | fin (s : Bool) (m : Nat) (e : Int)
deriving DecidableEq, Repr

/-- The value of an encoding (R144): an exponent of 0 reads as zero, whatever the fraction. -/
def Fmt.decode (f : Fmt) (x : Nat) : FVal :=
  let s := x / 2 ^ (f.eb + f.fb) % 2 = 1
  let e := x / 2 ^ f.fb % 2 ^ f.eb
  let m := x % 2 ^ f.fb
  if e = 0 then .zero s
  else if e = f.emax then
    if m = 0 then .inf s else .nan (m / 2 ^ (f.fb - 1) = 0)
  else .fin s (2 ^ f.fb + m) ((e : Int) - f.bias - f.fb)

/-- The encoding with sign, biased exponent and fraction. -/
def Fmt.mk3 (f : Fmt) (s : Bool) (e m : Nat) : Nat := s.toNat * 2 ^ (f.eb + f.fb) + e * 2 ^ f.fb + m

def Fmt.encInf (f : Fmt) (s : Bool) : Nat := f.mk3 s f.emax 0
def Fmt.encZero (f : Fmt) (s : Bool) : Nat := f.mk3 s 0 0
def Fmt.encMax (f : Fmt) (s : Bool) : Nat := f.mk3 s (f.emax - 1) (2 ^ f.fb - 1)
def Fmt.defNaN (f : Fmt) : Nat := f.mk3 false f.emax (2 ^ (f.fb - 1))

/-- FLG as bits of ST. -/
def flInvalid : Word := maskW 11 11
def flDivZero : Word := maskW 12 12
def flOverflow : Word := maskW 13 13
def flUnderflow : Word := maskW 14 14
def flInexact : Word := maskW 15 15

/-- Whether rounding moves the magnitude away from zero: the rest beyond the kept bits is `rem` of 2·`half`, with
more below it when `sticky` (R146). -/
def roundUp (rnd : Nat) (s odd : Bool) (rem half : Nat) (sticky : Bool) : Bool :=
  let inexact := rem ≠ 0 || sticky
  match rnd with
  | 0 => half < rem || (rem = half && half ≠ 0 && (sticky || odd))
  | 1 => false
  | 2 => inexact && !s
  | _ => inexact && s

/-- Rounds (-1)^s × (m, and a little more when `sticky`) × 2^e to the format (R146 to R148). m is not zero, and has
at least two bits more than the significand when `sticky`. -/
def Fmt.round (f : Fmt) (rnd : Nat) (s : Bool) (m : Nat) (e : Int) (sticky : Bool) : Nat × Word :=
  let l := Nat.log2 m
  let sh := l - f.fb
  let q := if l < f.fb then m * 2 ^ (f.fb - l) else m / 2 ^ sh
  let rem := if l < f.fb then 0 else m % 2 ^ sh
  let half := if sh = 0 then 0 else 2 ^ (sh - 1)
  let inexact := rem ≠ 0 || sticky
  let up := roundUp rnd s (q % 2 = 1) rem half sticky
  let q1 := if up then q + 1 else q
  let carry := q1 = 2 ^ (f.fb + 1)
  let ex : Int := e + l + (if carry then 1 else 0) + f.bias
  if (f.emax : Int) ≤ ex then
    let toInf := match rnd with
      | 0 => true
      | 1 => false
      | 2 => !s
      | _ => s
    (if toInf then f.encInf s else f.encMax s, flOverflow ||| flInexact)
  else if ex < 1 then (f.encZero s, flUnderflow ||| flInexact)
  else
    (f.mk3 s ex.toNat (if carry then 0 else q1 - 2 ^ f.fb), if inexact then flInexact else 0)

/-- The default NaN with FLG.invalid where it is set (R149). -/
def Fmt.nanOut (f : Fmt) (inv : Bool) : Nat × Word := (f.defNaN, if inv then flInvalid else 0)

def FVal.isNaN : FVal → Bool
  | .nan _ => true
  | _ => false

def FVal.isSNaN : FVal → Bool
  | .nan s => s
  | _ => false

/-- The NaN rule of R149 for two operands, before anything else. -/
def withNaN (f : Fmt) (a b : FVal) (r : Nat × Word) : Nat × Word :=
  if a.isNaN || b.isNaN then f.nanOut (a.isSNaN || b.isSNaN) else r

/-- An exact value as a signed integer at exponent t, for t not above its own. -/
def finInt (s : Bool) (m : Nat) (e t : Int) : Int :=
  let v : Int := (m * 2 ^ (e - t).toNat : Nat)
  if s then -v else v

/-- Sum of two values (R146 to R149). -/
def Fmt.add (f : Fmt) (rnd : Nat) (a b : FVal) : Nat × Word :=
  withNaN f a b <|
    match a, b with
    | .inf s, .inf t => if s = t then (f.encInf s, 0) else f.nanOut true
    | .inf s, _ => (f.encInf s, 0)
    | _, .inf t => (f.encInf t, 0)
    | .zero s, .zero t => (f.encZero (if s = t then s else rnd = 3), 0)
    | .zero _, .fin t m e => f.round rnd t m e false
    | .fin s m e, .zero _ => f.round rnd s m e false
    | .fin s m e, .fin t n d =>
      let x := min e d
      let z := finInt s m e x + finInt t n d x
      if z = 0 then (f.encZero (rnd = 3), 0) else f.round rnd (z < 0) z.natAbs x false
    | _, _ => f.nanOut false

/-- The value with its sign changed. -/
def FVal.neg : FVal → FVal
  | .nan q => .nan q
  | .inf s => .inf !s
  | .zero s => .zero !s
  | .fin s m e => .fin (!s) m e

/-- Product (R149). -/
def Fmt.mul (f : Fmt) (rnd : Nat) (a b : FVal) : Nat × Word :=
  withNaN f a b <|
    match a, b with
    | .inf s, .inf t => (f.encInf (s != t), 0)
    | .inf _, .zero _ => f.nanOut true
    | .zero _, .inf _ => f.nanOut true
    | .inf s, .fin t _ _ => (f.encInf (s != t), 0)
    | .fin s _ _, .inf t => (f.encInf (s != t), 0)
    | .zero s, .zero t => (f.encZero (s != t), 0)
    | .zero s, .fin t _ _ => (f.encZero (s != t), 0)
    | .fin s _ _, .zero t => (f.encZero (s != t), 0)
    | .fin s m e, .fin t n d => f.round rnd (s != t) (m * n) (e + d) false
    | _, _ => f.nanOut false

/-- Quotient (R149). -/
def Fmt.div (f : Fmt) (rnd : Nat) (a b : FVal) : Nat × Word :=
  withNaN f a b <|
    match a, b with
    | .inf _, .inf _ => f.nanOut true
    | .zero _, .zero _ => f.nanOut true
    | .inf s, .zero t => (f.encInf (s != t), 0)
    | .inf s, .fin t _ _ => (f.encInf (s != t), 0)
    | .zero s, .inf t => (f.encZero (s != t), 0)
    | .fin s _ _, .inf t => (f.encZero (s != t), 0)
    | .zero s, .fin t _ _ => (f.encZero (s != t), 0)
    | .fin s _ _, .zero t => (f.encInf (s != t), flDivZero)
    | .fin s m e, .fin t n d =>
      let k := 2 * f.fb + 8
      let x := m * 2 ^ k
      f.round rnd (s != t) (x / n) (e - d - k) (x % n ≠ 0)
    | _, _ => f.nanOut false

/-- The integer square root, bit by bit from bit k - 1 down. -/
def isqrtFrom (n : Nat) : Nat → Nat → Nat
  | 0, r => r
  | k + 1, r => isqrtFrom n k (if (r + 2 ^ k) * (r + 2 ^ k) ≤ n then r + 2 ^ k else r)

/-- Square root (R149). -/
def Fmt.sqrt (f : Fmt) (rnd : Nat) (a : FVal) : Nat × Word :=
  match a with
  | .nan q => f.nanOut q
  | .zero s => (f.encZero s, 0)
  | .inf s => if s then f.nanOut true else (f.encInf false, 0)
  | .fin true _ _ => f.nanOut true
  | .fin false m e =>
    let k : Nat := 2 * f.fb + 8 + (if (e % 2 = 0) then 0 else 1)
    let x := m * 2 ^ k
    let r := isqrtFrom x (Nat.log2 x / 2 + 1) 0
    f.round rnd false r ((e - k) / 2) (r * r ≠ x)

/-- An order of values that are no NaN, with -0 below +0 (R150): a key whose order is theirs, as a sign and an exact
comparison. -/
def fLess (a b : FVal) (zeroSigns : Bool) : Bool :=
  match a, b with
  | .inf s, .inf t => s && !t
  | .inf s, _ => s
  | _, .inf t => !t
  | .zero s, .zero t => zeroSigns && s && !t
  | .zero _, .fin t _ _ => !t
  | .fin s _ _, .zero _ => s
  | .fin s m e, .fin t n d =>
    let x := min e d
    finInt s m e x < finInt t n d x
  | _, _ => false

/-- The encoding of a value that is no NaN; a zero has F = 0 (R144). -/
def Fmt.enc (f : Fmt) : FVal → Nat
  | .nan _ => f.defNaN
  | .inf s => f.encInf s
  | .zero s => f.encZero s
  | .fin s m e => (f.round 0 s m e false).1

/-- FMIN and FMAX (R150). -/
def Fmt.minmax (f : Fmt) (mx : Bool) (a b : FVal) : Nat × Word :=
  withNaN f a b (f.enc (if fLess a b true != mx then a else b), 0)

/-- FCMP (R152): Z, N, C and V as bits of ST, with FLG.invalid for a signalling NaN. -/
def fcmpFlags (a b : FVal) : Word × Word :=
  if a.isNaN || b.isNaN then (bitAt 9 true, if a.isSNaN || b.isSNaN then flInvalid else 0)
  else if fLess a b false then (bitAt 7 true ||| bitAt 8 true, 0)
  else if fLess b a false then (0, 0)
  else (bitAt 6 true, 0)

/-- An integer as a floating value, rounded (FLT, R151). -/
def Fmt.ofInt (f : Fmt) (rnd : Nat) (z : Int) : Nat × Word :=
  if z = 0 then (f.encZero false, 0) else f.round rnd (z < 0) z.natAbs 0 false

/-- The magnitude m × 2^e rounded to an integer in direction rnd, and whether rounding changed it. -/
def roundInt (rnd : Nat) (s : Bool) (m : Nat) (e : Int) : Nat × Bool :=
  if 0 ≤ e then (m * 2 ^ min e.toNat 4200, false)
  else
    let sh := (-e).toNat
    let q := m / 2 ^ sh
    let rem := m % 2 ^ sh
    (if roundUp rnd s (q % 2 = 1) rem (2 ^ (sh - 1)) false then q + 1 else q, decide (rem ≠ 0))

/-- FIX (R151): the integer, the float flags, and Q. -/
def fixOf (rnd : Nat) (a : FVal) : Int × Word × Bool :=
  match a with
  | .nan _ => (0, flInvalid, false)
  | .inf s => (if s then -2 ^ 35 else 2 ^ 35 - 1, flInvalid, true)
  | .zero _ => (0, 0, false)
  | .fin s m e =>
    let r := roundInt rnd s m e
    let z : Int := if s then -(r.1 : Int) else r.1
    if inRange z then (z, if r.2 then flInexact else 0, false) else (satZ z, flInvalid, true)

/-- A conversion between formats (R151). -/
def Fmt.cvt (f : Fmt) (rnd : Nat) (a : FVal) : Nat × Word :=
  match a with
  | .nan q => f.nanOut q
  | .inf s => (f.encInf s, 0)
  | .zero s => (f.encZero s, 0)
  | .fin s m e => f.round rnd s m e false

/-- FNEG and FABS change bit 0 alone (R150). -/
def Fmt.chs (f : Fmt) (x : Nat) : Nat :=
  let h := 2 ^ (f.eb + f.fb)
  if x / h % 2 = 1 then x - h else x + h
def Fmt.absBits (f : Fmt) (x : Nat) : Nat := x % 2 ^ (f.eb + f.fb)

/-! ### Instructions (R153) -/

/-- ST.RND. -/
def Engine.rnd (g : Engine) : Nat := fld g.regs.st 16 17

/-- What a float instruction gives: a word or a pair for its destination, the flags under `m` with values `v`, and
the flags ORed in. -/
structure FloatR where
  res : Nat
  m : Word
  v : Word
  o : Word
deriving DecidableEq, Repr

/-- A float instruction's shape: width of its destination (0, 1 or 2 words), width of its sources a and b in words
(0 for a field it does not read), cycles, distance, long sub-unit, whether it writes flags. -/
structure FShape where
  dst : Nat
  sa : Nat
  sb : Nat
  cyc : Nat
  dist : Nat
  unit : LongUnit
  fl : Bool
deriving DecidableEq, Repr

/-- The registers of a field of n words. -/
def fieldRegs (r n : Nat) : List Dst :=
  match n with
  | 0 => []
  | 1 => [.w r]
  | _ => [.w r, .w (r + 1)]

/-- The value of a field of n words. -/
def fieldVal (g : Engine) (r n : Nat) : Nat := if n = 2 then g.pair r else (g.w r).toNat

/-- A float instruction: `f` gives its result from ST.RND and the operands. An odd pair field is illegal (R128). -/
def floatI (i : Instr) (e a b : Nat) (h : FShape) (f : Nat → Nat → Nat → FloatR) (s : State) : State :=
  let ill := orCause (if h.dst = 2 || h.sa = 2 then pairOdd a else none) (if h.sb = 2 then pairOdd b else none)
  issue { e := e, instr := i, len := 1, ill := ill, slotOk := true, rep := h.unit = .none, branch := false,
          need := 0, reads := fieldRegs a h.sa ++ fieldRegs b h.sb,
          writes := fieldRegs a h.dst ++ (if h.fl then [.st] else []), unit := h.unit, seq := true }
    (fun s =>
      let g := s.e e
      let r := f g.rnd (fieldVal g a h.sa) (fieldVal g b h.sb)
      let t := g.pipe.clk + h.dist
      let fl := if h.fl then [resF r.m r.v r.o t] else []
      let ps := match h.dst with
        | 0 => fl
        | 1 => { resW (.w a) (mkW r.res) t with unit := h.unit } :: fl
        | _ => { resW (.w a) (hiW r.res) t with unit := h.unit } :: resW (.w (a + 1)) (loW r.res) t :: fl
      fixed e h.cyc (s.modE e fun g => g.posts ps)) s

/-- Result bits with float flags. -/
def fOut (p : Nat × Word) : FloatR := { res := p.1, m := 0, v := 0, o := p.2 }

/-- Comparison flags. -/
def fCmpOut (p : Word × Word) : FloatR := { res := 0, m := mZNCV, v := p.1, o := p.2 }

/-- An integer result with float flags and Q. -/
def fFixOut (p : Int × Word × Bool) : FloatR := { res := (mkZ p.1).toNat, m := 0, v := 0, o := p.2.1 ||| bitAt 10 p.2.2 }

def shp (dst sa sb cyc dist : Nat) (unit : LongUnit) (fl : Bool) : FShape := { dst, sa, sb, cyc, dist, unit, fl }

/-- FADD (R153). -/
def execFadd (e a b : Nat) (s : State) : Host.Outcome State Fault Refusal :=
  onEngine e (okAB a b) (floatI (.fadd e a b) e a b (shp 1 1 1 1 3 .none true)
    (fun r x y => fOut (f36.add r (f36.decode x) (f36.decode y))) s)

/-- FSUB (R153). -/
def execFsub (e a b : Nat) (s : State) : Host.Outcome State Fault Refusal :=
  onEngine e (okAB a b) (floatI (.fsub e a b) e a b (shp 1 1 1 1 3 .none true)
    (fun r x y => fOut (f36.add r (f36.decode x) (f36.decode y).neg)) s)

/-- FMUL (R153). -/
def execFmul (e a b : Nat) (s : State) : Host.Outcome State Fault Refusal :=
  onEngine e (okAB a b) (floatI (.fmul e a b) e a b (shp 1 1 1 1 3 .none true)
    (fun r x y => fOut (f36.mul r (f36.decode x) (f36.decode y))) s)

/-- FCMP (R153). -/
def execFcmp (e a b : Nat) (s : State) : Host.Outcome State Fault Refusal :=
  onEngine e (okAB a b) (floatI (.fcmp e a b) e a b (shp 0 1 1 1 2 .none true)
    (fun _ x y => fCmpOut (fcmpFlags (f36.decode x) (f36.decode y))) s)

/-- FNEG (R153). -/
def execFneg (e a b : Nat) (s : State) : Host.Outcome State Fault Refusal :=
  onEngine e (okAB a b) (floatI (.fneg e a b) e a b (shp 1 0 1 1 1 .none false)
    (fun _ _ y => fOut (f36.chs y, 0)) s)

/-- FABS (R153). -/
def execFabs (e a b : Nat) (s : State) : Host.Outcome State Fault Refusal :=
  onEngine e (okAB a b) (floatI (.fabs e a b) e a b (shp 1 0 1 1 1 .none false)
    (fun _ _ y => fOut (f36.absBits y, 0)) s)

/-- FMIN (R153). -/
def execFmin (e a b : Nat) (s : State) : Host.Outcome State Fault Refusal :=
  onEngine e (okAB a b) (floatI (.fmin e a b) e a b (shp 1 1 1 1 2 .none true)
    (fun _ x y => fOut (f36.minmax false (f36.decode x) (f36.decode y))) s)

/-- FMAX (R153). -/
def execFmax (e a b : Nat) (s : State) : Host.Outcome State Fault Refusal :=
  onEngine e (okAB a b) (floatI (.fmax e a b) e a b (shp 1 1 1 1 2 .none true)
    (fun _ x y => fOut (f36.minmax true (f36.decode x) (f36.decode y))) s)

/-- FLT (R153). -/
def execFlt (e a b : Nat) (s : State) : Host.Outcome State Fault Refusal :=
  onEngine e (okAB a b) (floatI (.flt e a b) e a b (shp 1 0 1 1 3 .none true)
    (fun r _ y => fOut (f36.ofInt r (sgn (mkW y)))) s)

/-- FIX (R153). -/
def execFix (e a b : Nat) (s : State) : Host.Outcome State Fault Refusal :=
  onEngine e (okAB a b) (floatI (.fix e a b) e a b (shp 1 0 1 1 3 .none true)
    (fun r _ y => fFixOut (fixOf r (f36.decode y))) s)

/-- FDIV (R153). -/
def execFdiv (e a b : Nat) (s : State) : Host.Outcome State Fault Refusal :=
  onEngine e (okAB a b) (floatI (.fdiv e a b) e a b (shp 1 1 1 1 16 .divider true)
    (fun r x y => fOut (f36.div r (f36.decode x) (f36.decode y))) s)

/-- FSQRT (R153). -/
def execFsqrt (e a b : Nat) (s : State) : Host.Outcome State Fault Refusal :=
  onEngine e (okAB a b) (floatI (.fsqrt e a b) e a b (shp 1 0 1 1 18 .divider true)
    (fun r _ y => fOut (f36.sqrt r (f36.decode y))) s)

/-- FADD.D (R153). -/
def execFaddD (e a b : Nat) (s : State) : Host.Outcome State Fault Refusal :=
  onEngine e (okAB a b) (floatI (.faddD e a b) e a b (shp 2 2 2 2 4 .none true)
    (fun r x y => fOut (f72.add r (f72.decode x) (f72.decode y))) s)

/-- FSUB.D (R153). -/
def execFsubD (e a b : Nat) (s : State) : Host.Outcome State Fault Refusal :=
  onEngine e (okAB a b) (floatI (.fsubD e a b) e a b (shp 2 2 2 2 4 .none true)
    (fun r x y => fOut (f72.add r (f72.decode x) (f72.decode y).neg)) s)

/-- FMUL.D (R153). -/
def execFmulD (e a b : Nat) (s : State) : Host.Outcome State Fault Refusal :=
  onEngine e (okAB a b) (floatI (.fmulD e a b) e a b (shp 2 2 2 2 4 .none true)
    (fun r x y => fOut (f72.mul r (f72.decode x) (f72.decode y))) s)

/-- FCMP.D (R153). -/
def execFcmpD (e a b : Nat) (s : State) : Host.Outcome State Fault Refusal :=
  onEngine e (okAB a b) (floatI (.fcmpD e a b) e a b (shp 0 2 2 2 3 .none true)
    (fun _ x y => fCmpOut (fcmpFlags (f72.decode x) (f72.decode y))) s)

/-- FNEG.D (R153). -/
def execFnegD (e a b : Nat) (s : State) : Host.Outcome State Fault Refusal :=
  onEngine e (okAB a b) (floatI (.fnegD e a b) e a b (shp 2 0 2 1 1 .none false)
    (fun _ _ y => fOut (f72.chs y, 0)) s)

/-- FABS.D (R153). -/
def execFabsD (e a b : Nat) (s : State) : Host.Outcome State Fault Refusal :=
  onEngine e (okAB a b) (floatI (.fabsD e a b) e a b (shp 2 0 2 1 1 .none false)
    (fun _ _ y => fOut (f72.absBits y, 0)) s)

/-- FLT.D (R153). -/
def execFltD (e a b : Nat) (s : State) : Host.Outcome State Fault Refusal :=
  onEngine e (okAB a b) (floatI (.fltD e a b) e a b (shp 2 0 1 1 4 .converter true)
    (fun r _ y => fOut (f72.ofInt r (sgn (mkW y)))) s)

/-- FIX.D (R153). -/
def execFixD (e a b : Nat) (s : State) : Host.Outcome State Fault Refusal :=
  onEngine e (okAB a b) (floatI (.fixD e a b) e a b (shp 1 0 2 1 4 .converter true)
    (fun r _ y => fFixOut (fixOf r (f72.decode y))) s)

/-- FDIV.D (R153). -/
def execFdivD (e a b : Nat) (s : State) : Host.Outcome State Fault Refusal :=
  onEngine e (okAB a b) (floatI (.fdivD e a b) e a b (shp 2 2 2 1 32 .divider true)
    (fun r x y => fOut (f72.div r (f72.decode x) (f72.decode y))) s)

/-- FSQRT.D (R153). -/
def execFsqrtD (e a b : Nat) (s : State) : Host.Outcome State Fault Refusal :=
  onEngine e (okAB a b) (floatI (.fsqrtD e a b) e a b (shp 2 0 2 1 34 .divider true)
    (fun r _ y => fOut (f72.sqrt r (f72.decode y))) s)

/-- FCVT.D.F (R153). -/
def execFcvtDF (e a b : Nat) (s : State) : Host.Outcome State Fault Refusal :=
  onEngine e (okAB a b) (floatI (.fcvtDF e a b) e a b (shp 2 0 1 1 4 .converter true)
    (fun r _ y => fOut (f72.cvt r (f36.decode y))) s)

/-- FCVT.F.D (R153). -/
def execFcvtFD (e a b : Nat) (s : State) : Host.Outcome State Fault Refusal :=
  onEngine e (okAB a b) (floatI (.fcvtFD e a b) e a b (shp 1 0 2 1 4 .converter true)
    (fun r _ y => fOut (f36.cvt r (f72.decode y))) s)

/-! ### Integer long operations (R154 to R156) -/

/-- An integer long operation; `none` is the division by zero, which leaves W`a` and records a divide fault at its
landing (R156). -/
def divI (i : Instr) (e a b : Nat) (f : Word → Word → Word) (s : State) : State :=
  issue { e := e, instr := i, len := 1, ill := none, slotOk := true, rep := false, branch := false, need := 0,
          reads := [.w a, .w b], writes := [.w a], unit := .divider, seq := true }
    (fun s =>
      let g := s.e e
      let t := g.pipe.clk + 20
      let y := g.w b
      let p : Pend := if y = 0 then
          { dst := .w a, mask := 0, val := 0, orv := 0, at_ := t, unit := .divider, fault := some a }
        else { resW (.w a) (f (g.w a) y) t with unit := .divider }
      fixed e 1 (s.modE e fun g => g.post p)) s

/-- DIV (R156). -/
def execDiv (e a b : Nat) (s : State) : Host.Outcome State Fault Refusal :=
  onEngine e (okAB a b) (divI (.div e a b) e a b (fun x y => mkZ ((sgn x).tdiv (sgn y))) s)

/-- DIVU (R156). -/
def execDivu (e a b : Nat) (s : State) : Host.Outcome State Fault Refusal :=
  onEngine e (okAB a b) (divI (.divu e a b) e a b (fun x y => mkW (x.toNat / y.toNat)) s)

/-- REM (R156). -/
def execRem (e a b : Nat) (s : State) : Host.Outcome State Fault Refusal :=
  onEngine e (okAB a b) (divI (.rem e a b) e a b (fun x y => mkZ (sgn x - sgn y * (sgn x).tdiv (sgn y))) s)

/-- REMU (R156). -/
def execRemu (e a b : Nat) (s : State) : Host.Outcome State Fault Refusal :=
  onEngine e (okAB a b) (divI (.remu e a b) e a b (fun x y => mkW (x.toNat % y.toNat)) s)

end Sys2Proof.Machine
end

