-- ==== Sys2Proof/Machine/Branch.lean ====
section
/-! DEFINITION. Branches (R110, R160 to R162, R185 to R192, R231), far transfers (R163), repeats (R164 to R168). -/

namespace Sys2Proof.Machine

/-- The predictor counter of a parcel offset; reset 01 (R188, R190). -/
def Engine.predAt (g : Engine) (pc : Nat) : Nat := tget 1 g.mem.pred (pc % 1024)

/-- Updates the counter of a branch (R189). -/
def Engine.predUpd (g : Engine) (pc : Nat) (taken : Bool) : Engine :=
  let c := g.predAt pc
  let c' := if taken then min (c + 1) 3 else c - 1
  g.modMem fun m => { m with pred := tset 1 m.pred (pc % 1024) c' }

/-- Sets every counter to 01 (R190). -/
def Engine.predClear (g : Engine) : Engine := g.modMem fun m => { m with pred := [] }

/-- A branch that has resolved: its link, its cost in each mode, and where the code goes on. In OPEN mode its delay
slot comes next, and cycles beyond the first follow the delay slot. A replay under DS writes no register. -/
def branchTo (e len : Nat) (taken : Bool) (target : Int) (ci co : Nat) (link : Option Nat) (s : State) : State :=
  let g := s.e e
  let pc := g.regs.pc
  let lk := if g.dsBit then none else link
  let tgt := (target % pcMod).toNat
  let s := s.modE e fun g => g.modRegs fun r => { r with st := setBit r.st 4 false }
  if g.eff.open_ then
    let sl : Slot := { branch := pc, target := if taken then some tgt else none, bubble := co - 1,
                       link := lk.map fun a => (a, g.pipe.clk + 1) }
    setPc e (pc + len) (fixed e 1 (s.modE e fun g => g.modPipe fun p => { p with slot := some sl }))
  else
    let s := match lk with
      | some a => s.modE e fun g => g.post (resW (.w a) (mkW (pc + len)) (g.pipe.clk + 1))
      | none => s
    setPc e (if taken then tgt else pc + len) (fixed e ci (if taken || decide (1 < ci) then redirect e s else s))

/-- The issue description of a branch. -/
def branchQ (i : Instr) (e len : Nat) (ill : Option Nat) (rds wrs : List Dst) : Iss :=
  { e := e, instr := i, len := len, ill := ill, slotOk := false, rep := false, branch := true, need := 0,
    reads := rds, writes := wrs, unit := .none, seq := false }

/-- A predicted branch: prediction, counters and cost (R162, R187 to R189, R191). -/
def predicted (e len : Nat) (taken : Bool) (target : Int) (s : State) : State :=
  let g := s.e e
  let pc := g.regs.pc
  let guess := g.eff.pred && decide (2 ≤ g.predAt pc)
  let s := count e cPBRC 1 s
  let s := if g.eff.pred then s.modE e fun g => g.predUpd pc taken else s
  if guess = taken then branchTo e len taken target (if taken then 2 else 1) 1 none s
  else branchTo e len taken target 4 4 none (count e cPBRM 1 s)

/-- The target of B, CALL and DBNZ (R161). -/
def relTarget (g : Engine) (disp : Nat) : Int := (g.regs.pc : Int) + sext 18 disp

/-- B (R160, R161). -/
def execB (e cond u disp : Nat) (s : State) : Host.Outcome State Fault Refusal :=
  onEngine e (decide (cond < 16 ∧ u < 256 ∧ disp < 262144))
    (issue (branchQ (.b e cond u disp) e 2 (unused u) (if cond = 0 then [] else [.st]) []) (fun s =>
      let g := s.e e
      if cond = 0 then branchTo e 2 true (relTarget g disp) 2 1 none s
      else predicted e 2 (condTrue cond g.regs.st) (relTarget g disp) s) s)

/-- CALL (R161). -/
def execCall (e a u disp : Nat) (s : State) : Host.Outcome State Fault Refusal :=
  onEngine e (decide (a < 16 ∧ u < 256 ∧ disp < 262144))
    (issue (branchQ (.call e a u disp) e 2 (unused u) [] [.w a]) (fun s =>
      branchTo e 2 true (relTarget (s.e e) disp) 2 1 (some a) s) s)

/-- DBNZ (R161): a replay tests W`a` without decrementing it (R231). -/
def execDbnz (e a u disp : Nat) (s : State) : Host.Outcome State Fault Refusal :=
  onEngine e (decide (a < 16 ∧ u < 256 ∧ disp < 262144))
    (issue (branchQ (.dbnz e a u disp) e 2 (unused u) [.w a] [.w a]) (fun s =>
      let g := s.e e
      let v := if g.dsBit then g.w a else g.w a - 1
      let s := if g.dsBit then s else s.modE e fun g => g.post (resW (.w a) v (g.pipe.clk + 1))
      predicted e 2 (decide (v ≠ 0)) (relTarget g disp) s) s)

/-- JR (R161). -/
def execJr (e a u : Nat) (s : State) : Host.Outcome State Fault Refusal :=
  onEngine e (okAB a u)
    (issue (branchQ (.jr e a u) e 1 (unused u) [.w a] []) (fun s =>
      branchTo e 1 true ((s.e e).w a).toNat 3 2 none s) s)

/-- CALLR (R161): W`b` is read before W`a` is written. -/
def execCallr (e a b : Nat) (s : State) : Host.Outcome State Fault Refusal :=
  onEngine e (okAB a b)
    (issue (branchQ (.callr e a b) e 1 none [.w b] [.w a]) (fun s =>
      branchTo e 1 true ((s.e e).w b).toNat 3 2 (some a) s) s)

/-! ### Far transfers (R163) -/

/-- The descriptor of SEGLD and the far transfers: in the descriptor cache, or as just read, or the line to read (R95).
`bad` says why the instruction refuses it; else `k` acts, and the descriptor is entered (R94, R163). On a miss the fixed count
is 20, else 12; FINFO of a refusal has the field `seg` and offset 0 (log entry 60). -/
def withDescr (i : Instr) (e t ix seg : Nat) (bad : DcEntry → Option Nat) (k : DcEntry → State → State) (s : State) : State :=
  let go := fun (x : DcEntry) (s : State) =>
    let n := if (s.e e).pipe.descIn.isSome then 20 else 12
    let s := s.modE e fun g => g.modPipe fun p => { p with descIn := none }
    match bad x with
    | some c => preciseFault e vSeg c seg 0 s
    | none => fixed e n (k x (s.modE e fun g => g.dcEnter x))
  microcoded e i ((s.e e).dcFind t ix).isSome (fun s =>
    match (s.e e).dcFind t ix with
    | some x => go x s
    | none =>
      match (s.e e).pipe.descIn with
      | some x => if x.tenant = t && x.index = ix then go x s else descStall e i (descAddr s t ix / 8) t ix seg s
      | none => descStall e i (descAddr s t ix / 8) t ix seg s) s

/-- The selector of SEGLD and the far transfers: below M level its TENANT is TID.TENANT (R94, R163). -/
def selTenant (g : Engine) (w : Word) : Nat := if g.level = 2 then fld w 0 11 else g.tenant

def farQ (i : Instr) (e : Nat) (ill : Option Nat) (rds wrs : List Dst) : Iss :=
  { e := e, instr := i, len := 1, ill := ill, slotOk := false, rep := false, branch := false, need := 0,
    reads := rds, writes := wrs, unit := .none, seq := false }

/-- FJMP and FCALL: the checks, then CS and the program counter; `link` also writes W14. -/
def farGo (i : Instr) (e a b : Nat) (link : Bool) (s : State) : State :=
  let g := s.e e
  let w := g.w b
  let t := selTenant g w
  let ix := fld w 12 19
  withDescr i e t (remapIdx s e t ix) 8
    (fun x => if descAbsent x.d1 || fld x.d1 6 17 ≠ t || fld x.d1 0 2 ≠ tyCode then some 2
      else if g.level = 2 && t ≠ 0 then some 3 else none)
    (fun _ s =>
      let s := if link then s.modE e fun g =>
          g.post (resW (.w 14) (place 0 7 (fld g.regs.cs 12 19) ||| place 8 35 (g.regs.pc + 1)) (g.pipe.clk + 1))
        else s
      redirect e (setPc e (g.w a).toNat (s.modE e fun g => g.modRegs fun r => { r with cs := mkSel t ix }))) s

/-- FJMP (R163). -/
def execFjmp (e a b : Nat) (s : State) : Host.Outcome State Fault Refusal :=
  onEngine e (okAB a b)
    (issue (farQ (.fjmp e a b) e none [.w a, .w b] []) (farGo (.fjmp e a b) e a b false) s)

/-- FCALL (R163). -/
def execFcall (e a b : Nat) (s : State) : Host.Outcome State Fault Refusal :=
  onEngine e (okAB a b)
    (issue (farQ (.fcall e a b) e none [.w a, .w b] [.w 14]) (farGo (.fcall e a b) e a b true) s)

/-- FRET (R163): the return tenant of R78 at the level that stands. DEDUCED: the target is checked by the fetch
there, as the pseudocode of R163 names no check; log entry 20. -/
def execFret (e a u : Nat) (s : State) : Host.Outcome State Fault Refusal :=
  onEngine e (okAB a u)
    (issue (farQ (.fret e a u) e (unused u) [.w a] []) (fun s =>
      let g := s.e e
      let w := g.w a
      let t := if g.level = 2 then 0 else g.tenant
      let ix := fld w 0 7
      withDescr (.fret e a u) e t (remapIdx s e t ix) 8 (fun _ => none) (fun _ s =>
        redirect e (setPc e (fld w 8 35) (s.modE e fun g => g.modRegs fun r => { r with cs := mkSel t ix }))) s) s)

/-! ### Repeats (R164 to R167) -/

/-- RPT and RPTU with count n: a count of 0 skips the next instruction. -/
def repeatI (i : Instr) (e n : Nat) (ru : Bool) (nxt : RepClass) (s : State) : State :=
  issue { e := e, instr := i, len := 1, ill := if nxt = .repeatable then none else some 5, slotOk := false,
          rep := false, branch := false, need := 0, reads := [], writes := [], unit := .none, seq := true }
    (fun s =>
      let s := fixed e 1 s
      if n = 0 then s.modE e fun g => g.modPipe fun p => { p with skip := true }
      else s.modE e fun g => g.modRegs fun r => { r with st := setBit (setFld r.st 24 35 n) 5 ru }) s

/-- RPT (R165). -/
def execRpt (e a imm : Nat) (nxt : RepClass) (s : State) : Host.Outcome State Fault Refusal :=
  onEngine e (okAI a imm) (repeatI (.rpt e a imm nxt) e (256 * a + imm) false nxt s)

/-- RPTU (R165). -/
def execRptu (e a imm : Nat) (nxt : RepClass) (s : State) : Host.Outcome State Fault Refusal :=
  onEngine e (okAI a imm) (repeatI (.rptu e a imm nxt) e (256 * a + imm) true nxt s)

end Sys2Proof.Machine
end

