-- ==== Sys2Proof/Machine/Memory.lean ====
section
/-! DEFINITION. Loads, stores and atomics of an engine (R158, R159): near store (R101, R204, R365), L1 data cache
(R205, R318 to R320), store buffer (R200 to R203), deferred stores (R299), reservations (R120 to R125, R339, R340,
R654) and watched granules (R301). -/

namespace Sys2Proof.Machine

/-! ### Near store -/

/-- A read at offset o by engine e: below M level a word under another tenant's tag reads as zero (R365). -/
def Engine.nearGet (g : Engine) (o : Nat) : Word :=
  if g.level < 2 && tget 0 g.mem.ntag (o / 8) ≠ g.tenant then 0 else tget 0 g.mem.near o

/-- A write at offset o: the line's tag becomes TID.TENANT, and under another tag its other words become zero
(R365). A written word is no longer marked uncorrectable. -/
def Engine.nearPut (g : Engine) (o : Nat) (v : Word) : Engine :=
  g.modMem fun m =>
    let k := o / 8
    let other := tget 0 m.ntag k ≠ g.tenant
    let near := if other then (List.range 8).foldl (fun n i => tset 0 n (8 * k + i) 0) m.near else m.near
    let nbad := if other then m.nbad.filter (fun a => a / 8 ≠ k) else m.nbad.filter (fun a => a ≠ o)
    { m with near := tset 0 near o v, ntag := tset 0 m.ntag k g.tenant, nbad := nbad }

/-- Writes words from offset o on. -/
def Engine.nearPuts (g : Engine) (o : Nat) (ws : List Word) : Engine :=
  (ws.foldl (fun (p : Engine × Nat) w => (p.1.nearPut p.2 w, p.2 + 1)) (g, o)).1

/-! ### L1 data cache -/

/-- The copy of a line under the engine's tenant (R319). -/
def Engine.l1Find (g : Engine) (line : Nat) : Option L1Line :=
  g.mem.l1d.find? fun x => x.line = line && x.tenant = g.tenant

/-- The copy of a line, whatever its tenant. -/
def Engine.l1Any (g : Engine) (line : Nat) : Option L1Line := g.mem.l1d.find? fun x => x.line = line

/-- Makes a line the most recently used. -/
def Engine.l1Touch (g : Engine) (line : Nat) : Engine :=
  match g.l1Any line with
  | some x => g.modMem fun m => { m with l1d := x :: m.l1d.filter fun y => y.line ≠ line }
  | none => g

/-- Removes the copy of a line. -/
def Engine.l1Drop (g : Engine) (line : Nat) : Engine :=
  g.modMem fun m => { m with l1d := m.l1d.filter fun y => y.line ≠ line }

/-- Replaces the copy of a line in place. -/
def Engine.l1Set (g : Engine) (x : L1Line) : Engine :=
  g.modMem fun m => { m with l1d := m.l1d.map fun y => if y.line = x.line then x else y }

/-- Uses the L1 lines from which a load takes words, that is, those of words that no store-buffer entry holds (R203, R205). -/
def Engine.l1Uses (g : Engine) (pas : List Nat) (hit : Nat → Bool) : Engine :=
  ((pas.filter hit).map (· / 8)).eraseDups.foldl Engine.l1Touch g

/-! ### Store buffer -/

/-- The enable bit of word k of a line (bit k, least significant first). -/
def enHas (en k : Nat) : Bool := en / 2 ^ k % 2 = 1

/-- The word of a line in the youngest entry of the engine's tenant that holds it enabled (R203). -/
def Engine.sbWord (g : Engine) (a : Nat) : Option Word :=
  (g.mem.sb.reverse.find? fun x => x.line = a / 8 && x.tenant = g.tenant && x.kind ≠ .control && enHas x.en (a % 8)).map
    fun x => x.ws.getD (a % 8) 0

/-- Closes every entry (R201). -/
def Engine.sbClose (g : Engine) : Engine :=
  g.modMem fun m => { m with sb := m.sb.map fun x => { x with openE := false } }

/-- Whether a store to line `l` of this kind merges into an open entry (R200). -/
def SbEntry.takes (x : SbEntry) (l t : Nat) (k : SbKind) : Bool :=
  x.openE && x.line = l && x.tenant = t && x.kind = k && k ≠ .control

/-- The issue-clock cycle at which an instruction of n cycles that issues at cycle i retires: a one-cycle instruction at i + 4
(R206; for the others the last of its cycles counts, log entry 62). -/
def retireAt (i n : Nat) : Nat := i + n + 3

/-- A stall whose end waits for the engine's own stores: they retire in it (log entry 62). -/
def Wait.forStores : Wait → Bool
  | .buffer => true
  | .fence => true
  | .settle => true
  | .drain => true
  | .cond _ => true
  | _ => false

/-- Every instruction that wrote into an entry has retired. A measured stall freezes the second back end (R180), but for one that
waits for the stores themselves; an engine that issues nothing for another reason has retired what it issued (log entry 62). -/
def Engine.retired (g : Engine) (x : SbEntry) : Bool :=
  decide (x.retAt ≤ g.pipe.clk) || match g.run.stall with
    | some w => w.why.forStores
    | none => !(canIssue g || g.pipe.exc.isSome)

/-- Puts one word into the store buffer, merging into an open entry or taking a new one (R200); its instruction retires at cycle
`ret` (R208). -/
def Engine.sbPut (g : Engine) (k : SbKind) (ret a : Nat) (v : Word) (seg : Nat) (off : Word) : Engine :=
  let l := a / 8
  let i := a % 8
  g.modMem fun m =>
    if m.sb.any fun x => x.takes l g.tenant k then
      { m with sb := m.sb.map fun x =>
          if x.takes l g.tenant k then
            { x with ws := x.ws.set i v, en := if enHas x.en i then x.en else x.en + 2 ^ i, retAt := max x.retAt ret }
          else x }
    else
      { m with sb := m.sb ++ [{ line := l, tenant := g.tenant, kind := k, ws := (List.replicate 8 0).set i v,
                                en := 2 ^ i, openE := true, phase := 0, due := 0, act := g.act, ctx := g.ctx,
                                seg := seg, soff := off, unc := false, lvl := g.level, retAt := ret }] }

/-- The entries that a store of these words needs beyond those it merges into. -/
def Engine.sbNeed (g : Engine) (k : SbKind) (as_ : List Nat) : Nat :=
  ((as_.map (· / 8)).eraseDups.filter fun l => !(g.mem.sb.any fun x => x.takes l g.tenant k)).length

/-- A control-window store takes an entry of its own (R61, R201). -/
def Engine.sbCtl (g : Engine) (ret off : Nat) (ws : List Word) (seg : Nat) (so : Word) : Engine :=
  g.modMem fun m =>
    { m with sb := m.sb ++ [{ line := off, tenant := g.tenant, kind := .control, ws := ws, en := 0, openE := false,
                              phase := 0, due := 0, act := g.act, ctx := g.ctx, seg := seg, soff := so, unc := false,
                              lvl := g.level, retAt := ret }] }

/-- All eight words of a line. -/
def fullEn : Nat := 255

/-- The words of a line with the words enabled in an eight-bit mask replaced. -/
def mergeWords (en : Nat) (old new : List Word) : List Word :=
  (List.range 8).map fun k => if enHas en k then new.getD k 0 else old.getD k 0

/-- The enabled words of an entry are written into the copy of its line. -/
def sbIntoLine (x : SbEntry) (c : L1Line) (st : L1State) : L1Line :=
  { c with ws := mergeWords x.en c.ws x.ws, st := st, pois := Nat.land c.pois (fullEn - x.en) }

/-- 64 µs (R354). -/
def noAnswerU : Nat := 64 * 64000

/-! ### Replacement in the L1 data cache -/

/-- An entry will drain into a copy in E or M. -/
def L1Line.drains (c : L1Line) (x : SbEntry) : Bool :=
  (c.st = .e || c.st = .m) && x.line = c.line && x.tenant = c.tenant && x.kind ≠ .control && x.phase = 0 && !x.unc
    && !(x.act && x.kind = .data)

/-- The engine holds line l in E or M together with a store-buffer entry that must drain into it first: one that has retired (R330),
or one that an STC wrote into (R340). -/
def heldBack (g : Engine) (l : Nat) : Bool :=
  match g.l1Any l with
  | some x => g.mem.sb.any fun b => x.drains b && (g.retired b || b.stc)
  | none => false

/-- The copy of line l cannot leave yet: a store must drain into it, or its MOD is unanswered (R327, R330). -/
def Engine.l1Stays (g : Engine) (l : Nat) : Bool :=
  heldBack g l || g.mem.sb.any fun b => b.line = l && b.kind ≠ .control && b.phase = 2

/-- Evicts a copy under replacement: a line in M is written back with WBK, any other is dropped (R318). -/
def l1Evict (e line : Nat) (s : State) : State :=
  match (s.e e).l1Any line with
  | some x =>
    let s := s.modE e fun g => g.l1Drop line
    if x.st = .m then send (.wbk e line x.ws x.pois) s else s
  | none => s

/-- The line that leaves for line l: the least recently used of a full set of four ways (set: line modulo 128, R205). One that an
STC which has not retired will write is passed over (DESIGN CHOICE, log entry 73). -/
def Engine.l1Victim (g : Engine) (l : Nat) : Option L1Line :=
  let kept := fun (c : L1Line) => g.mem.sb.any fun b => c.drains b && b.stc && !g.retired b
  let q := g.mem.l1d.filter fun y => y.line % 128 = l % 128 && y.line ≠ l
  if q.length < 4 then none else (q.filter fun c => !kept c).getLast?

/-- A line may be installed: the line that leaves for it can leave now. -/
def Engine.l1Free (g : Engine) (l : Nat) : Bool :=
  match g.l1Victim l with
  | some v => !g.l1Stays v.line
  | none => true

/-- Installs a line, evicting the least recently used of its set (R205). -/
def l1Install (e : Nat) (x : L1Line) (s : State) : State :=
  let s := s.modE e fun g => g.l1Drop x.line
  let s := match (s.e e).l1Victim x.line with
    | some v => l1Evict e v.line s
    | none => s
  s.modE e fun g => g.modMem fun m => { m with l1d := x :: m.l1d }

/-! ### Address formation (R84) -/

/-- The selector that a segment field names: D0 to D7 as in effect (R115), or CS. -/
def Engine.segSel (g : Engine) (seg : Nat) : Word := if seg = 8 then g.regs.cs else tget 0 g.eff.d seg

/-- The offset W`b` + disp, exact (R84). -/
def Engine.memOff (g : Engine) (b disp : Nat) : Int := ((g.w b).toNat : Int) + sext 18 disp

/-- Whether a type-and-address pair goes to the control window. -/
def isCtlAcc (typ a : Nat) : Bool := typ ≠ tyNear && inCtl a

/-- The issue description of a memory instruction with n words (R128, R167, R220). -/
def memQ (i : Instr) (e a b seg n : Nat) (load : Bool) (rep stc : Bool) (g : Engine) : Iss :=
  let inRep := g.rc ≠ 0 && rep
  { e := e, instr := i, len := 2,
    ill := orCause (if n = 2 then pairOdd a else none) (if 8 < seg then some 7 else none),
    slotOk := true, rep := rep, branch := false, need := 0,
    reads := .w b :: (if load then [] else fieldRegs a n),
    writes := (if load then fieldRegs a n else []) ++ (if inRep then [.w b] else []) ++ (if stc then [.st] else []),
    unit := .none, seq := true }

/-- Within a repeat, the base register grows by the size, at distance 1 (R167). -/
def repBase (e b n : Nat) (s : State) : State :=
  let g := s.e e
  if g.rc = 0 then s else s.modE e fun g => g.post (resW (.w b) (g.w b + mkW n) (g.pipe.clk + 1))

/-- A watchpoint match becomes a halt after the access (R595). -/
def watchHit (e : Nat) (store : Bool) (pas : List Nat) (s : State) : State :=
  match wpMatch s e store pas with
  | some n => haltDue e 5 n s
  | none => s

/-- What reading words answers: the words; a poisoned or uncorrectable word (its index and the fault's cause); or a
line to wait for. -/
inductive RdRes where
  | ok (ws : List Word)
  | bad (k cause : Nat)
  | miss (line : Nat)
deriving DecidableEq, Repr

/-- One data word as a load finds it (R46, R203): store buffer, a line delivered uncached (R647), L1. -/
def Engine.dataWord (g : Engine) (a : Nat) : Sum Word (Option Nat) :=
  match g.sbWord a with
  | some v => .inl v
  | none =>
    let c := match g.mem.unc.find? fun x => x.line = a / 8 with
      | some x => some x
      | none => g.l1Find (a / 8)
    match c with
    | some x => if enHas x.pois (a % 8) then .inr none else .inl (x.ws.getD (a % 8) 0)
    | none => .inr (some (a / 8))

/-- Reads data words in order. -/
def Engine.dataWords (g : Engine) : Nat → List Nat → RdRes
  | _, [] => .ok []
  | k, a :: t =>
    match g.dataWord a with
    | .inl v => match g.dataWords (k + 1) t with
      | .ok ws => .ok (v :: ws)
      | r => r
    | .inr none => .bad k 1
    | .inr (some l) => .miss l

/-- Below M level, a word under another tenant's tag, which reads as zero (R365). -/
def Engine.nearOther (g : Engine) (o : Nat) : Bool := decide (g.level < 2) && decide (tget 0 g.mem.ntag (o / 8) ≠ g.tenant)

/-- Reads near-store words; an uncorrectable word is a data loss with cause 04 (R220), but for one under another tenant's tag,
which raises nothing (R365). -/
def Engine.nearWords (g : Engine) : Nat → List Nat → RdRes
  | _, [] => .ok []
  | k, o :: t =>
    if g.mem.nbad.contains o && !g.nearOther o then .bad k 4
    else match g.nearWords (k + 1) t with
      | .ok ws => .ok (g.nearGet o :: ws)
      | r => r

/-- The context that RDS carries while an activation runs (R327). -/
def Engine.rdsCtx (g : Engine) : Option Nat := if g.act then some g.ctx else none

/-! ### Reservations -/

/-- The granule of a word (R120, R125). -/
def granOf (s : State) (g : Engine) (near : Bool) (a : Nat) : Granule :=
  let n := 2 ^ s.cf rRSVCFG 0 1
  { tenant := g.tenant, first := a / 8 / n * n, size := n, near := near }

/-- Removes the watch entry of index idx of engine e at every home (R339). -/
def unwatch (e idx : Nat) (s : State) : State :=
  { s with home := { s.home with watches := s.home.watches.filter fun w => !(w.e = e && w.idx = idx) } }

/-- The reservation is lost or cleared (R122, R123). -/
def resvClear (e : Nat) (s : State) : State := unwatch e 0 (s.modE e fun g => g.modMem fun m => { m with resv := none })

/-- The lines of a granule. -/
def Granule.lines (g : Granule) : List Nat := (List.range g.size).map (g.first + ·)

/-- The home of line l records the watch of engine e's reservation (R339). -/
def homeWatch (e l : Nat) (s : State) : State :=
  if s.home.watches.contains { e := e, idx := 0, line := l } then s
  else { s with home := { s.home with watches := s.home.watches ++ [{ e := e, idx := 0, line := l }] } }

/-- LDR sets the reservation as it issues: WATCH goes to the home of every line of the granule but the one it loads, whose watch
its load request carries (R120, R339). -/
def resvSet (e a : Nat) (near : Bool) (s : State) : State :=
  let s := resvClear e s
  let g := s.e e
  let gr := granOf s g near a
  let others := if near then [] else gr.lines.filter (· ≠ a / 8)
  let s := s.modE e fun g => g.modMem fun m =>
    { m with resv := some { gran := gr, setAt := g.pipe.cyc, awaited := others } }
  others.foldl (fun s l => send (.watch e l 0) s) s

/-- A write of line l by another agent that its home has accepted is under way. -/
def writeUnderWay (s : State) (e l : Nat) : Bool :=
  s.home.txns.any fun t => t.line = l && t.req ≠ .engine e && match t.kind with
    | .rdx => true
    | .upg => true
    | .wrl _ => true
    | .wrm .. => true
    | _ => false

/-- LDR completes. Its limit counts from here (R122). A line that needed no load request is watched from here (log entry 63); where
a write that its home has accepted is under way, the word loaded is older than that write, and the reservation is lost. A
reservation that is lost by now stays lost. -/
def resvLoaded (e a : Nat) (near : Bool) (s : State) : State :=
  if (s.e e).mem.resv.isNone then s
  else
    let s := s.modE e fun g => g.modMem fun m => { m with resv := m.resv.map fun r => { r with setAt := g.pipe.cyc } }
    if near then s else if writeUnderWay s e (a / 8) then resvClear e s else homeWatch e (a / 8) s

/-- A home slice has accepted a write to the granule, and its RSVL is on the way: the reservation is lost (R122, R339). -/
def rsvlComing (s : State) (e : Nat) (r : Reserv) : Bool :=
  !r.gran.near && s.home.net.any fun m => match m with
    | .rsvl x l => x = e && r.gran.lines.contains l
    | _ => false

/-- The reservation stands: it belongs to the present tenant, no write has been accepted, and its limit is not reached (R122, R123).
An LDR retires four cycles after its issue (R206). -/
def resvLive (s : State) (e : Nat) : Bool :=
  match (s.e e).mem.resv with
  | some r => r.gran.tenant = (s.e e).tenant && decide ((s.e e).pipe.cyc < retireAt r.setAt 1 + 4096) && !rsvlComing s e r
  | none => false

/-- The reservation is held and covers a word (R123). -/
def resvHeld (s : State) (e : Nat) (near : Bool) (a : Nat) : Bool :=
  resvLive s e && (s.e e).mem.resv.any fun r => r.gran = granOf s (s.e e) near a

/-! ### Loads -/

/-- A step that starts at LDR or LDR.D with DCTL.RSTEP at 1 is a reserved step of at most 64 instructions (R594, R599). -/
def rstepStart (e : Nat) (s : State) : State :=
  s.modE e fun g => g.modRun fun r =>
    { r with stepMode := if r.stepMode = .step && bit (g.dbgE 0o60) 1 then .reserved 64 else r.stepMode }

/-- The end of a load: results at distance 2, the reservation of LDR, the repeat's base register, a watchpoint. -/
def loadEnd (e a b n typ : Nat) (ldr : Bool) (pas : List Nat) (ws : List Word) (s : State) : State :=
  let s := s.modE e fun g =>
    let t := g.pipe.clk + 2
    (g.posts (List.zipWith (fun k w => resW (.w (a + k)) w t) (List.range n) ws)).modMem
      fun m => { m with unc := [], ctlAns := none }
  let s := if ldr then resvLoaded e (pas.headD 0) (typ = tyNear) s else s
  let s := fixed e 1 (repBase e b n s)
  let s := if ldr then rstepStart e s else s
  watchHit e false (if typ = tyNear then [] else pas) s

/-- The stall that has ended was one for line l. -/
def waitedFor (g : Engine) (l : Nat) : Bool :=
  match g.run.resuming with
  | some x => x.why = .line l
  | none => false

/-- The instruction has waited for a line before. -/
def waitedLine (g : Engine) : Bool :=
  match g.run.resuming with
  | some x => match x.why with
    | .line _ => true
    | _ => false
  | none => false

/-- The measured stall of a load for a line that misses (R203, R319): a copy under another tenant's tag is evicted, and the line is
requested, with a watch for LDR (R339); the copy first takes the stores that it waits for (R330). Each line that misses is counted
in PMLD (R213). -/
def loadMiss (e : Nat) (i : Instr) (l : Nat) (w : Bool) (s : State) : State :=
  let g := s.e e
  let s := stallOn e i (.line l) (if waitedFor g l then s else count e cPMLD 1 s)
  if g.l1Stays l then s else request (.engine e) l g.tenant (.rds g.rdsCtx w) (l1Evict e l s)

/-- A load of n words (R158, R203, R204, R61, R299). -/
def loadBody (i : Instr) (e a b seg disp n : Nat) (ldr : Bool) (s : State) : State :=
  let g := s.e e
  let off := g.memOff b disp
  let sel := g.segSel seg
  match segCheck s e sel g.level g.tenant (if ldr then .ldr else .load) off n with
  | .fault v c o => preciseFault e v c seg o s
  | .failStore o => preciseFault e vAddr 2 seg o s
  | .need l t ix => descStall e i l t ix seg s
  | .ok typ pas =>
    let s := s.modE e fun g => g.dcTouch (fld sel 0 11) (remapIdx s e (fld sel 0 11) (fld sel 12 19))
    let a0 := pas.headD 0
    let s := if ldr && !waitedLine g then resvSet e a0 (typ = tyNear) s else s
    let g := s.e e
    if isCtlAcc typ a0 then
      match g.mem.ctlAns with
      | some ws => loadEnd e a b n typ ldr pas ws s
      | none => stallOn e i (.ctl (a0 - ctlBase) (n = 2)) s
    else
      match (if typ = tyNear then g.nearWords 0 pas else g.dataWords 0 pas) with
      | .ok ws => loadEnd e a b n typ ldr pas ws
          (if typ = tyNear then s else s.modE e fun g => g.l1Uses pas fun x => (g.sbWord x).isNone)
      | .bad k c => lossFault e c seg (mkZ (off + k)) (s.modE e fun g => g.modMem fun m => { m with unc := [] })
      | .miss l => loadMiss e i l (ldr && decide (l = a0 / 8)) s

/-- A load instruction. -/
def loadI (i : Instr) (e a b seg disp n : Nat) (ldr : Bool) (s : State) : State :=
  issue (memQ i e a b seg n true (!ldr) false (s.e e)) (loadBody i e a b seg disp n ldr) s

/-- LD (R158). -/
def execLd (e a b seg disp : Nat) (s : State) : Host.Outcome State Fault Refusal :=
  onEngine e (okLong a b seg disp) (loadI (.ld e a b seg disp) e a b seg disp 1 false s)

/-- LDD (R158). -/
def execLdd (e a b seg disp : Nat) (s : State) : Host.Outcome State Fault Refusal :=
  onEngine e (okLong a b seg disp) (loadI (.ldd e a b seg disp) e a b seg disp 2 false s)

/-- LDR (R120). -/
def execLdr (e a b seg disp : Nat) (s : State) : Host.Outcome State Fault Refusal :=
  onEngine e (okLong a b seg disp) (loadI (.ldr e a b seg disp) e a b seg disp 1 true s)

/-- LDR.D (R120). -/
def execLdrD (e a b seg disp : Nat) (s : State) : Host.Outcome State Fault Refusal :=
  onEngine e (okLong a b seg disp) (loadI (.ldrD e a b seg disp) e a b seg disp 2 true s)

/-! ### Stores -/

/-- The stores of one access that has passed its checks: near store at once (R204), a deferred or buffered
control-window store (R299, R201), or store-buffer words (R200), of an instruction of `cnt` cycles. `none` when the store
buffer lacks entries (R202). -/
def storeWords (e cnt typ seg : Nat) (off : Int) (pas : List Nat) (ws : List Word) (s : State) : Option State :=
  let g := s.e e
  let so := mkZ off
  let a0 := pas.headD 0
  let ret := retireAt g.pipe.clk cnt
  if typ = tyNear then some (s.modE e fun g => g.nearPuts a0 ws)
  else if isCtlAcc typ a0 then
    if g.act && (typ = tyDevice || typ = tyMailbox) then
      if g.mem.defer.length < 32 then
        some (s.modE e fun g => g.modMem fun m =>
          { m with defer := m.defer ++ [{ off := a0 - ctlBase, ws := ws, seg := seg, soff := so, lvl := g.level }] })
      else some (failRec e { cause := 2, seg := seg, off := so } s)
    else if g.mem.sb.length < 8 then some (s.modE e fun g => g.sbCtl ret (a0 - ctlBase) ws seg so)
    else none
  else
    let k : SbKind := if typ = tyCode then .code else .data
    if g.mem.sb.length + g.sbNeed k pas ≤ 8 then
      some (s.modE e fun g =>
        (List.zipWith Prod.mk pas ws).foldl
          (fun g p => g.sbPut k ret p.1 p.2 seg (mkZ (off + ((p.1 : Int) - a0)))) g)
    else none

/-- The stored registers. -/
def regWords (g : Engine) (a n : Nat) : List Word := (List.range n).map fun k => g.w (a + k)

/-- The body of ST and STD (R159). -/
def storeBody (i : Instr) (e a b seg disp n : Nat) (s : State) : State :=
  let g := s.e e
  let off := g.memOff b disp
  let sel := g.segSel seg
  match segCheck s e sel g.level g.tenant .store off n with
  | .fault v c o => preciseFault e v c seg o s
  | .failStore o => fixed e 1 (repBase e b n (failRec e { cause := 2, seg := seg, off := o } s))
  | .need l t ix => descStall e i l t ix seg s
  | .ok typ pas =>
    let s := s.modE e fun g => g.dcTouch (fld sel 0 11) (remapIdx s e (fld sel 0 11) (fld sel 12 19))
    match storeWords e 1 typ seg off pas (regWords (s.e e) a n) s with
    | none => stallOn e i .buffer s
    | some s => watchHit e true (if typ = tyNear then [] else pas) (fixed e 1 (repBase e b n s))

/-- A store instruction. -/
def storeI (i : Instr) (e a b seg disp n : Nat) (s : State) : State :=
  issue (memQ i e a b seg n false true false (s.e e)) (storeBody i e a b seg disp n) s

/-- ST (R159). -/
def execSt (e a b seg disp : Nat) (s : State) : Host.Outcome State Fault Refusal :=
  onEngine e (okLong a b seg disp) (storeI (.st e a b seg disp) e a b seg disp 1 s)

/-- STD (R158). -/
def execStd (e a b seg disp : Nat) (s : State) : Host.Outcome State Fault Refusal :=
  onEngine e (okLong a b seg disp) (storeI (.std e a b seg disp) e a b seg disp 2 s)

/-! ### Conditional stores -/

/-- The lowest free watch entry of 1 to 4 (R301). -/
def freeWatch (g : Engine) : Option Nat := [1, 2, 3, 4].find? fun i => !(g.mem.watch.any fun w => w.idx = i)

/-- The granule of a successful STC of an activation becomes watched, or is watched for this STC too; a fifth granule is a failure
record (R301, R340). -/
def watchAdd (e seg : Nat) (off : Word) (gr : Granule) (s : State) : State :=
  let add := fun (n : Nat) => s.modE e fun g => g.modMem fun m =>
    { m with watch := m.watch ++ [{ idx := n, gran := gr, seg := seg, off := off }] }
  match (s.e e).mem.watch.find? fun w => w.gran = gr with
  | some w => add w.idx
  | none =>
    match freeWatch (s.e e) with
    | none => failRec e { cause := 2, seg := seg, off := off } s
    | some n => gr.lines.foldl (fun s l => send (.watch e l n) s) (add n)

/-- The home keeps a transaction of engine e for line l open for a merge write (R647). -/
def openUnc (s : State) (e l : Nat) : Bool := s.home.txns.any fun t => t.unc && t.req = .engine e && t.line = l

/-- An STC that stored to a line served uncached drains as the merge write that its transaction waits for (R647). -/
def markUnc (e : Nat) (s : State) : State :=
  let ls := (s.home.txns.filter fun t => t.unc && t.req = .engine e).map Txn.line
  s.modE e fun g => g.modMem fun m =>
    { m with sb := m.sb.map fun x => if x.kind = .data && x.phase = 0 && !x.act && ls.contains x.line then { x with unc := true } else x }

/-- Transactions kept open for a merge write end (R647); what IACK they still await is awaited on. -/
def closeTxns (p : Txn → Bool) (s : State) : State :=
  let close := fun (t : Txn) =>
    if !(p t) then some t
    else if t.acks.isEmpty then none
    else some { t with req := .mgmt, kind := .inval, unc := false }
  { s with home := { s.home with txns := s.home.txns.filterMap close } }

/-- An open transaction for which the engine has no store any more is closed. -/
def closeUnc (e : Nat) (s : State) : State :=
  let q := (s.e e).mem.sb
  closeTxns (fun t => t.unc && t.req = .engine e && !(q.any fun x => x.line = t.line && x.kind ≠ .control)) s

/-- The open entries for these lines hold words of an STC (R340). -/
def Engine.sbStc (g : Engine) (t : Nat) (ls : List Nat) : Engine :=
  g.modMem fun m => { m with sb := m.sb.map fun x =>
    if x.openE && x.tenant = t && x.kind ≠ .control && ls.contains x.line then { x with stc := true } else x }

/-- The end of an STC: the reservation is cleared and ST.Z says whether it stored (R123). -/
def stcEnd (e : Nat) (z : Bool) (s : State) : State :=
  let s := if z then markUnc e (resvClear e s) else resvClear e s
  fixed e 2 (s.modE e fun g => g.post (resF stZ (bitAt 6 z) 0 (g.pipe.clk + 2)))

/-- The decision of an STC that has its line (R123, R654). One that decides to store and finds no free store-buffer entry stores
nothing yet: it waits under R202 and decides anew (DESIGN CHOICE, log entry 64). -/
def stcDecide (i : Instr) (e a seg n typ : Nat) (off : Int) (pas : List Nat) (s : State) : State :=
  let g := s.e e
  let a0 := pas.headD 0
  if resvHeld s e (typ = tyNear) a0 then
    match storeWords e 2 typ seg off pas (regWords g a n) s with
    | none => stallOn e i .buffer s
    | some s =>
      let s := if typ = tyNear then s else s.modE e fun g => g.sbStc g.tenant (pas.map (· / 8))
      let s := if g.act && typ = tyData then watchAdd e seg (mkZ off) (granOf s g false a0) s else s
      watchHit e true (if typ = tyNear then [] else pas) (stcEnd e true s)
  else stcEnd e false s

/-- The body of STC and STC.D: with TID.ACT at 0 a line of a data segment is first obtained in E or M (R340). -/
def stcBody (i : Instr) (e a b seg disp n : Nat) (s : State) : State :=
  let g := s.e e
  let off := g.memOff b disp
  let sel := g.segSel seg
  match segCheck s e sel g.level g.tenant .stc off n with
  | .fault v c o => preciseFault e v c seg o s
  | .failStore o => stcEnd e false (failRec e { cause := 2, seg := seg, off := o } s)
  | .need l t ix => descStall e i l t ix seg s
  | .ok typ pas =>
    let s := s.modE e fun g => g.dcTouch (fld sel 0 11) (remapIdx s e (fld sel 0 11) (fld sel 12 19))
    let g := s.e e
    let l := pas.headD 0 / 8
    let waits := match g.mem.resv with
      | some r => !r.awaited.isEmpty
      | none => false
    if waits then stallOn e i .watches s
    else if typ = tyData && !g.act && g.mem.ctlAns.isNone then
      match g.l1Find l with
      | some x =>
        if x.st = .e || x.st = .m then stcDecide i e a seg n typ off pas s
        else request (.engine e) l g.tenant .upg (stallOn e i (.stcLine l) s)
      | none =>
        let s := stallOn e i (.stcLine l) s
        if g.l1Stays l then s else request (.engine e) l g.tenant .rdx (l1Evict e l s)
    else stcDecide i e a seg n typ off pas s

/-- A conditional store. -/
def stcI (i : Instr) (e a b seg disp n : Nat) (s : State) : State :=
  issue (memQ i e a b seg n false false true (s.e e)) (stcBody i e a b seg disp n) s

/-- STC (R123). -/
def execStc (e a b seg disp : Nat) (s : State) : Host.Outcome State Fault Refusal :=
  onEngine e (okLong a b seg disp) (stcI (.stc e a b seg disp) e a b seg disp 1 s)

/-- STC.D (R123). -/
def execStcD (e a b seg disp : Nat) (s : State) : Host.Outcome State Fault Refusal :=
  onEngine e (okLong a b seg disp) (stcI (.stcD e a b seg disp) e a b seg disp 2 s)

end Sys2Proof.Machine
end

