-- ==== Sys2Proof/Machine/Control.lean ====
section
/-! DEFINITION. Control, segment and special-register instructions (R72 to R78, R94, R97, R115 to R119, R157, R169 to
R171, R174, R230, R231, R350). -/

namespace Sys2Proof.Machine

/-- The issue description of a one-parcel control instruction. -/
def ctlQ (i : Instr) (e : Nat) (ill : Option Nat) (slotOk : Bool) (need : Nat) (rds wrs : List Dst) (seq : Bool) : Iss :=
  { e := e, instr := i, len := 1, ill := ill, slotOk := slotOk, rep := false, branch := false, need := need,
    reads := rds, writes := wrs, unit := .none, seq := seq }

/-- NOP (R169); it can be repeated (R164). -/
def execNop (e u : Nat) (s : State) : Host.Outcome State Fault Refusal :=
  onEngine e (decide (u < 256))
    (issue { ctlQ (.nop e u) e (unused u) true 0 [] [] true with rep := true } (fixed e 1) s)

/-- An instruction of an unassigned opcode; an unassigned long major is two parcels long (R129). -/
def execUnassignedOpcode (e : Nat) (long : Bool) (s : State) : Host.Outcome State Fault Refusal :=
  onEngine e true
    (issue { ctlQ (.unassignedOpcode e long) e (some 1) true 0 [] [] true with len := if long then 2 else 1 } id s)

/-! ### Control synchronisation -/

/-- Every pending control write takes effect (R115 to R118). -/
def Engine.sync (g : Engine) : Engine :=
  { g with eff := { d := g.regs.d, open_ := bit g.regs.st 3, pred := bit g.regs.ectl 0, dbg := g.regs.dbg } }

/-- The divide fault that DRAIN, CSYNC and the like raise precisely (R117, R241); it stays due until it is taken (R225). -/
def longFault (e : Nat) (k : State → State) (s : State) : State :=
  match (s.e e).pipe.divDue with
  | some a => preciseFault e vDivide (0o20 + a) 0 0 s
  | none => k s

/-- The wait of CSYNC and of what acts as CSYNC does: long operations land, their fault is raised, every other
result lands, pending control writes apply; `n` cycles follow the wait (R198). -/
def csyncThen (e n : Nat) (k : State → State) (s : State) : State :=
  longFault e (fun s =>
    let s := fixed e n s
    let s := waitTo e (s.e e).lastLanding s
    k (s.modE e Engine.sync)) (waitTo e (s.e e).lastLong s)

/-- CSYNC (R117, R198). -/
def execCsync (e u : Nat) (s : State) : Host.Outcome State Fault Refusal :=
  onEngine e (decide (u < 256)) (issue (ctlQ (.csync e u) e (unused u) false 0 [] [] true) (csyncThen e 4 id) s)

/-- DRAIN (R157, R198). -/
def execDrain (e u : Nat) (s : State) : Host.Outcome State Fault Refusal :=
  onEngine e (decide (u < 256))
    (issue (ctlQ (.drain e u) e (unused u) true 0 [] [] true)
      (fun s => longFault e (fixed e 1) (waitTo e (s.e e).lastLong s)) s)

/-! ### Fences (R350) -/

/-- The store-failure exception for every record held, described by the oldest (R220, R242). Those records are consumed when
it is taken; one that comes later stays. -/
def storeFailure (e : Nat) (k : State → State) (s : State) : State :=
  match (s.e e).mem.fails with
  | [] => k s
  | r :: t =>
    (preciseFault e vStore (r.cause + (if t.isEmpty then 0 else 0o40)) r.seg r.off s).modE e fun g => g.modPipe fun p =>
      { p with exc := p.exc.map fun x => { x with nrec := t.length + 1 } }

/-- The store side of a fence: every entry closes; a wait while one is outstanding; then the failure records. -/
def fenceStores (e : Nat) (i : Instr) (w : Wait) (k : State → State) (s : State) : State :=
  let s := s.modE e Engine.sbClose
  if (s.e e).mem.sb.isEmpty then storeFailure e k s else stallOn e i w s

/-- The load side of a fence: a wait until the invalidations queued by now have been applied. -/
def fenceLoads (e : Nat) (i : Instr) (k : State → State) (s : State) : State :=
  let g := s.e e
  if g.mem.ctlAns.isSome || g.mem.invq.isEmpty then k (s.modE e fun g => g.modMem fun m => { m with ctlAns := none })
  else stallOn e i (.invals g.mem.invq.length) s

/-- FENCE.L (R350). -/
def execFenceL (e u : Nat) (s : State) : Host.Outcome State Fault Refusal :=
  onEngine e (decide (u < 256))
    (issue (ctlQ (.fenceL e u) e (unused u) true 0 [] [] true) (fenceLoads e (.fenceL e u) (fixed e 1)) s)

/-- FENCE.S (R350). -/
def execFenceS (e u : Nat) (s : State) : Host.Outcome State Fault Refusal :=
  onEngine e (decide (u < 256))
    (issue (ctlQ (.fenceS e u) e (unused u) true 0 [] [] true) (fenceStores e (.fenceS e u) .fence (fixed e 1)) s)

/-- FENCE.LS (R350). -/
def execFenceLS (e u : Nat) (s : State) : Host.Outcome State Fault Refusal :=
  onEngine e (decide (u < 256))
    (issue (ctlQ (.fenceLS e u) e (unused u) true 0 [] [] true)
      (fenceStores e (.fenceLS e u) .fence (fenceLoads e (.fenceLS e u) (fixed e 1))) s)

/-! ### Special registers (R71 to R74, R170, R594) -/

/-- Whether the lifecycle state is SERVICE (R581). -/
def inServiceLife (s : State) : Bool := s.cf bootBlk 0 1 = 2

/-- MFR: what special register n reads as; none for an unassigned number (R72, R73). -/
def specialRead (s : State) (g : Engine) (n : Nat) : Option Word :=
  if n < 16 then some (g.w n)
  else match n with
  | 0o20 => some g.regs.ph
  | 0o21 => some g.regs.pl
  | 0o22 => some g.regs.st
  | 0o23 => some g.regs.spc
  | 0o24 => some g.regs.cs
  | 0o25 => some g.regs.tid
  | 0o26 => some g.regs.ectl
  | 0o27 => some g.regs.sad
  | 0o40 => some g.regs.finfo
  | 0o41 => some g.regs.foff
  | 0o60 => some (if inServiceLife s then setBit (g.dbg n) 14 false else g.dbg n)
  | 0o67 => some g.regs.dstat
  | _ =>
    if 0o30 ≤ n ∧ n ≤ 0o37 then some (g.d (n - 0o30))
    else if 0o61 ≤ n ∧ n ≤ 0o66 then some (g.dbg n)
    else none

/-- The register that a special number names for the rules of results (R107). -/
def specialDst (n : Nat) : List Dst :=
  if n < 16 then [.w n] else if n = 0o20 then [.ph] else if n = 0o21 then [.pl] else if n = 0o22 then [.st] else []

def isDbgReg (n : Nat) : Bool := decide (0o60 ≤ n ∧ n ≤ 0o67)

/-- MFR (R72, R73). -/
def execMfr (e a imm : Nat) (s : State) : Host.Outcome State Fault Refusal :=
  let ill := if (specialRead s (s.e e) imm).isNone then some 0o11 else none
  onEngine e (okAI a imm)
    (issue { ctlQ (.mfr e a imm) e ill true (if isDbgReg imm then 2 else 0) (specialDst imm) [.w a] true with rep := false }
      (fun s =>
        let v := (specialRead s (s.e e) imm).getD 0
        fixed e 1 (s.modE e fun g => g.post (resW (.w a) v (g.pipe.clk + 1)))) s)

/-- The fields of ST that MTR writes at a level (R72, R74). -/
def stWritable (lvl : Nat) : Word := maskW 6 17 ||| (if lvl = 0 then 0 else maskW 2 3)

/-- An MTR that no level may make (R73). -/
def mtrIllegal (n : Nat) : Bool :=
  !(decide (n ≤ 0o27) && n ≠ 0o24) && !isDbgReg n

/-- A write of TID: reserved bits read zero (R6); a change of TENANT clears the predictor and the line buffer (R184, R190), and a
pending budget exception or deadline abort is discarded when ACT becomes 0 (R236, R237). -/
def Engine.setTid (v : Word) (g : Engine) : Engine :=
  let w := v &&& maskW 0 27
  let sw := fld w 0 11 ≠ g.tenant
  let g := (g.modRegs fun r => { r with tid := w }).modPipe fun p =>
    { p with budgetPend := p.budgetPend && bit w 27, dlPend := p.dlPend && bit w 27 }
  if sw then g.predClear.modMem fun m => { m with lbuf := [] } else g

/-- MTR: the write of special register n with v (R72 to R74, R115, R141). -/
def specialWrite (n : Nat) (v : Word) (g : Engine) : Engine :=
  let t := g.pipe.clk + 1
  if n < 16 then g.post (resW (.w n) v t)
  else match n with
  | 0o20 => (g.post (resW .ph v t)).modPipe fun p => { p with accH := v }
  | 0o21 => (g.post (resW .pl v t)).modPipe fun p => { p with accL := v }
  | 0o22 => g.post (resF (stWritable g.level) v 0 t)
  | 0o23 => g.modRegs fun r => { r with spc := v }
  | 0o25 => g.setTid v
  | 0o26 => g.modRegs fun r => { r with ectl := v &&& maskW 0 0 }
  | 0o27 => g.modRegs fun r => { r with sad := v &&& maskW 0 15 }
  | 0o67 => g
  | _ =>
    let m := if n = 0o60 then maskW 0 14 else if n = 0o65 ∨ n = 0o66 then maskW 1 35 else full
    g.modRegs fun r => { r with dbg := tset (dbgReset n) r.dbg n (v &&& m) }

/-- MTR (R72 to R74). Below M level a write of TID or SAD is a privilege fault with cause 02; a write of ECTL at U
level is one with cause 01 (DEDUCED from R72 and R81, log entry 21). -/
def execMtr (e a imm : Nat) (s : State) : Host.Outcome State Fault Refusal :=
  let need := if isDbgReg imm then 2 else if imm = 0o26 then 1 else 0
  onEngine e (okAI a imm)
    (issue (ctlQ (.mtr e a imm) e (if mtrIllegal imm then some 0o11 else none) true need [.w a] (specialDst imm) true)
      (fun s =>
        let g := s.e e
        if g.level < 2 && (imm = 0o25 || imm = 0o27) then preciseFault e vPriv 2 0 0 s
        else fixed e 1 (s.modE e (specialWrite imm (g.w a)))) s)

/-- RDT (R171): seconds and nanosecond word of device time, from one instant. -/
def execRdt (e a u : Nat) (s : State) : Host.Outcome State Fault Refusal :=
  onEngine e (okAB a u)
    (issue (ctlQ (.rdt e a u) e (orCause (unused u) (pairOdd a)) true 0 [] (fieldRegs a 2) true)
      (fun s =>
        let n := s.net.devTime
        fixed e 2 (s.modE e fun g =>
          let t := g.pipe.clk + 2
          g.posts [resW (.w a) (mkW (n / 64000000000)) t, resW (.w (a + 1)) (mkW (n % 64000000000)) t])) s)

/-! ### Traps (R169, R174) -/

/-- BRK (R169, R595). -/
def execBrk (e u : Nat) (s : State) : Host.Outcome State Fault Refusal :=
  onEngine e (decide (u < 256))
    (issue (ctlQ (.brk e u) e (unused u) false 0 [] [] false) (fun s =>
      let g := s.e e
      if s.sys.attached && bit (g.dbgE 0o60) 12 then haltDue e 6 0 s
      else detect e (excAt vBrk 0 (g.regs.pc + 1)) s) s)

/-- SVC (R174): the supervisor trap with cause imm8[2..7]; `a` must be 0. -/
def execSvc (e a imm : Nat) (s : State) : Host.Outcome State Fault Refusal :=
  onEngine e (okAI a imm)
    (issue (ctlQ (.svc e a imm) e (unused a) false 0 [] [] false) (fun s =>
      detect e (excAt vSvc (imm % 64) ((s.e e).regs.pc + 1)) s) s)

/-- MVC (R174): the mantle trap. -/
def execMvc (e a imm : Nat) (s : State) : Host.Outcome State Fault Refusal :=
  onEngine e (okAI a imm)
    (issue (ctlQ (.mvc e a imm) e (unused a) false 0 [] [] false) (fun s =>
      detect e (excAt vMvc (imm % 64) ((s.e e).regs.pc + 1)) s) s)

/-! ### Segments -/

/-- SEGLD (R94, R95, R115, R531). -/
def execSegld (e a b : Nat) (s : State) : Host.Outcome State Fault Refusal :=
  onEngine e (okAB a b)
    (issue (ctlQ (.segld e a b) e (if 7 < a then some 7 else none) true 0 [.w b] [] true) (fun s =>
      let g := s.e e
      let w := g.w b
      let t := selTenant g w
      let ix := fld w 12 19
      withDescr (.segld e a b) e t (remapIdx s e t ix) a (fun x => if descAbsent x.d1 || fld x.d1 6 17 ≠ t then some 2 else none)
        (fun _ s => s.modE e fun g => g.setD a (mkSel t ix)) s) s)

/-- SEGINV at one engine: the descriptor leaves its cache, and every selector of it, pending ones included, loses
LOADED (R97). -/
def Engine.seginv (t i : Nat) (g : Engine) : Engine :=
  let clr := fun (w : Word) => if fld w 0 11 = t && fld w 12 19 = i then setBit w 20 false else w
  let clrT := fun (d : Tbl Word) => (List.range 8).foldl (fun d k => tset 0 d k (clr (tget 0 d k))) d
  let g := g.modRegs fun r => { r with cs := clr r.cs, d := clrT r.d }
  let g := g.modMem fun m => { m with dcache := m.dcache.filter fun x => !(x.tenant = t && x.index = i) }
  let g := g.modPipe fun p => { p with descIn := p.descIn.filter fun x => !(x.tenant = t && x.index = i) }
  { g with eff := { g.eff with d := clrT g.eff.d } }

/-- SEGINV on every engine (R97). -/
def seginvAll (t i : Nat) (s : State) : State := (List.range 144).foldl (fun s e => s.modE e (Engine.seginv t i)) s

/-- SEGINV (R97, R169): the instruction waits, as a measured stall, for SEGINV_COMPLETE. -/
def execSeginv (e a b : Nat) (s : State) : Host.Outcome State Fault Refusal :=
  onEngine e (okAB a b)
    (issue (ctlQ (.seginv e a b) e none true 2 [.w a, .w b] [] true) (microcoded e (.seginv e a b) false fun s =>
      let g := s.e e
      if g.mem.ctlAns.isSome then fixed e 8 (s.modE e fun g => g.modMem fun m => { m with ctlAns := none })
      else stallOn e (.seginv e a b) (.seginv (fld (g.w a) 0 11) (fld (g.w b) 0 7)) s) s)

/-! ### Return (R77, R78, R103, R104, R230, R231) -/

/-- First near-store offset of a level's save area (R102). -/
def saveArea (lvl : Nat) : Nat := if lvl = 2 then 0o76000 else if lvl = 1 then 0o76400 else 0o77000

/-- The depth of a level's save area in SAD. -/
def depthOf (sad : Word) (lvl : Nat) : Nat := if lvl = 2 then fld sad 0 4 else if lvl = 1 then fld sad 5 9 else fld sad 10 14

def setDepth (sad : Word) (lvl n : Nat) : Word :=
  if lvl = 2 then setFld sad 0 4 n else if lvl = 1 then setFld sad 5 9 n else setFld sad 10 14 n

/-- SAD.DF. -/
def dfBit (sad : Word) : Bool := bit sad 15

/-- The sixteen words of the frame at `base`, each as `rd` reads it. A word that the near store cannot correct has a free value
(log entry 61). -/
def frameRead (ctr : Nat) (g : Engine) (rd : Nat → Word) (base : Nat) : List Word :=
  (List.range 16).map fun k => if g.mem.nbad.contains (base + k) then Config.freeNear ctr k else rd (base + k)

/-- The free counter after a frame has been read. -/
def frameCtr (e base : Nat) (s : State) : State :=
  if (List.range 16).any fun k => (s.e e).mem.nbad.contains (base + k) then { s with freeCtr := s.freeCtr + 1 } else s

/-- The fields of ST: its reserved bits read zero (R6, R71). -/
def stFields : Word := maskW 0 17 ||| maskW 24 35

/-- Restores W0 to W7, ST, PH, PL and TID from a frame (R230). -/
def Engine.restoreFrame (g : Engine) (fr : List Word) : Engine :=
  let at_ := fun k => fr.getD k 0
  let g := g.modRegs fun r =>
    { r with w := (List.range 8).foldl (fun w k => tset 0 w k (at_ k)) r.w, st := at_ 8 &&& stFields, ph := at_ 10,
             pl := at_ 11 }
  (g.setTid (at_ 12)).modPipe fun p => { p with accH := at_ 10, accL := at_ 11 }

/-- RETX (R230): the checks in order; then the restored state, CS and program counter from SPC, SPC from the frame, and
an implicit CSYNC, whose long-operation fault comes before anything is restored (DEDUCED, log entry 22). -/
def retxBody (e : Nat) (s : State) : State :=
  let g := s.e e
  let l := g.level
  let df := l = 2 && dfBit g.regs.sad
  let d := depthOf g.regs.sad l
  let base := saveArea l + 16 * (if df then 15 else d - 1)
  let fr := frameRead s.freeCtr g g.nearGet base
  let s' := frameCtr e base s
  let st := fr.getD 8 0
  let fault := fun c => preciseFault e vRet c 0 0 s'
  if !df && d = 0 then preciseFault e vRet 3 0 0 s
  else if fld st 0 1 = 3 then fault 2
  else if l < fld st 0 1 then fault 1
  else if l < 2 && fr.getD 12 0 ≠ g.regs.tid then fault 4
  else
    longFault e (fun s =>
      let s := fixed e 9 s
      redirect e (s.modE e fun g =>
        let g := g.landUpTo (g.lastLanding)
        let spc := g.regs.spc
        let g := g.restoreFrame fr
        let rt := if fld st 0 1 = 2 then 0 else g.tenant
        let g := g.modRegs fun r =>
          { r with sad := if df then setBit r.sad 15 false else setDepth r.sad l (d - 1),
                   cs := mkSel rt (fld spc 0 7), pc := fld spc 8 35, spc := fr.getD 9 0 }
        g.sync)) (waitTo e (s.e e).lastLanding s')

/-- RETX (R230). -/
def execRetx (e u : Nat) (s : State) : Host.Outcome State Fault Refusal :=
  onEngine e (decide (u < 256)) (issue (ctlQ (.retx e u) e (unused u) false 0 [] [] false) (retxBody e) s)

end Sys2Proof.Machine
end

