-- ==== Sys2Proof/Machine/Time.lean ====
section
/-! DEFINITION. Device time (R434, R435): its advance at a root-clock cycle, and the instants that events bring. -/

namespace Sys2Proof.Machine

/-- The fractions that the accumulator counts: one sixty-fourth of a nanosecond is 5 × 2^40 of them (R435). -/
def fine : Nat := 5 * 2 ^ 40

/-- Sets device time. -/
def setTime (t : Nat) (s : State) : State := { s with net := { s.net with devTime := t } }

/-- An event that is due at instant t brings device time forward to it. DESIGN CHOICE: log entry 2. -/
def bringTo (t : Nat) (s : State) : State := setTime (max s.net.devTime t) s

/-- One root-clock cycle: device time advances by 6.4 ns × (1 + DTRATE × 2^-40), and no fraction is lost (R435).
This is what an empty queue does. DESIGN CHOICE: log entry 1. -/
def rootTick (s : State) : State :=
  let rate := sgn (s.cg (ethBlk + 0o40014))
  let add := (2048 * ((2 ^ 40 : Int) + rate)).toNat
  let f := s.net.frac + add
  { s with net := { s.net with devTime := s.net.devTime + f / fine, frac := f % fine } }

/-- A time in the device time format (R434): SEC, then NS and SUB. -/
def timeHi (t : Nat) : Word := mkW (t / secU)
def timeLo (t : Nat) : Word := mkW (t % secU)

/-- The time that a double in the device time format holds. -/
def ofTime (hi lo : Word) : Nat := hi.toNat * secU + lo.toNat

end Sys2Proof.Machine
end

