-- ==== Sys2Proof/Machine/Task.lean ====
section
/-! DEFINITION. Activations: context records (R269, R270), boundaries and deadlines (R272), ready deques (R282 to
R285), where an activation is, what its end discards (R311), and the return to the mantle (R302). -/

namespace Sys2Proof.Machine

/-! ### Free values -/

/-- Takes the next free value: the counter before, and the state with the counter advanced. -/
def freeNext (s : State) : Nat × State := (s.freeCtr, { s with freeCtr := s.freeCtr + 1 })

/-- A free number of at most `bound` (log entry 9). -/
def freeUpTo (bound : Nat) (s : State) : Nat × State :=
  let r := freeNext s
  (Config.freeStall r.1 % (bound + 1), r.2)

/-! ### Units of time -/

/-- 25 µs and 100 ns in sixty-fourths of a nanosecond. -/
def tickU : Nat := 1600000
def dlU : Nat := 6400

/-! ### Records (R270) -/

/-- Field x[a..b] of word i of a record's words. -/
def recF (ws : List Word) (i a b : Nat) : Nat := fld (ws.getD i 0) a b

def recPer (ws : List Word) : Nat := (ws.getD 2 0).toNat
def recPh (ws : List Word) : Nat := (ws.getD 3 0).toNat
def recDl (ws : List Word) : Nat := (ws.getD 4 0).toNat
def recBudget (ws : List Word) : Nat := dbl (ws.getD 5 0) (ws.getD 6 0)
def recHome (ws : List Word) : Nat := recF ws 1 0 7
def recWsMax (ws : List Word) : Nat := recF ws 12 0 11

/-- Boundary n of a context (R272). -/
def boundary (ws : List Word) (n : Nat) : Nat := (n * recPer ws + recPh ws) * tickU

/-- The absolute deadline of activation n (R272). -/
def deadline (ws : List Word) (n : Nat) : Nat :=
  if recDl ws = 0 then boundary ws (n + 1) else boundary ws n + recDl ws * dlU

/-- CLMASK and ENMASK admit engine e (R285). -/
def admits (ws : List Word) (e : Nat) : Bool :=
  bit (ws.getD 1 0) (8 + e / 12) && bit (ws.getD 1 0) (20 + e % 12)

/-- The last four checks of R274. -/
def recOk (ws : List Word) : Bool :=
  decide (recHome ws ≤ 143 ∧ 5 ≤ recPer ws ∧ recPer ws ≤ 24000000 ∧ recPh ws < recPer ws ∧ 1 ≤ recBudget ws
    ∧ 1 ≤ recWsMax ws ∧ recDl ws ≤ 250 * recPer ws ∧ recF ws 0 17 18 < 2) && admits ws (recHome ws)

/-- Words 00 to 14 (octal) of the record of context k. -/
def ctxWords (s : State) (k : Nat) : List Word := s.cgs (rCtx k 0) 13

def ctxState (s : State) (k : Nat) : Nat := s.cf (rCtx k 0) 12 14
def setCtxState (k v : Nat) (s : State) : State := s.csf (rCtx k 0) 12 14 v
def ctxDis (s : State) (k : Nat) : Bool := s.cb (rCtx k 0) 22
def ctxNext (s : State) (k : Nat) : Nat := s.cg2 (rCtx k 13)

/-- A fresh entry of activation n of context k (R282, R296). -/
def freshEntry (k n : Nat) (ws : List Word) : Entry :=
  { ctx := k, kind := .fresh, tenant := recF ws 0 0 11, sealed := bit (ws.getD 0 0) 21, n := n, rel := boundary ws n,
    deadline := deadline ws n, remain := recBudget ws, carry := { fails := [], grans := [], ndef := 0 }, recw := ws }

/-! ### Deques (R282 to R284) -/

def State.deque (s : State) (e : Nat) : List Entry := tget [] s.rel.deques e
def State.overflow (s : State) (e : Nat) : List Entry := tget [] s.rel.overflow e
def State.modRel (s : State) (f : Rel → Rel) : State := { s with rel := f s.rel }
def State.setDeque (s : State) (e : Nat) (l : List Entry) : State :=
  s.modRel fun r => { r with deques := tset [] r.deques e l }
def State.setOverflow (s : State) (e : Nat) (l : List Entry) : State :=
  s.modRel fun r => { r with overflow := tset [] r.overflow e l }

/-- The order of R283. -/
def entBefore (x y : Entry) : Bool := x.deadline < y.deadline || (x.deadline = y.deadline && x.ctx < y.ctx)

/-- Inserts an entry in the order of R283. -/
def entIns (x : Entry) : List Entry → List Entry
  | [] => [x]
  | y :: t => if entBefore x y then x :: y :: t else y :: entIns x t

/-- An activation has entered a deque of cluster c: IPEND.WORK of each engine of it whose TID.ACT is 0 (R233); a wait
of the idle loop outside Pearl ends (R289). -/
def workSet (c : Nat) (s : State) : State :=
  (List.range 12).foldl (fun s i =>
    let e := 12 * c + i
    let g := s.e e
    if g.act then s
    else
      let s := s.csf (rIPEND e) 2 2 1
      if g.run.idleWait && !g.run.pearl then s.modE e fun g => g.modRun fun r => { r with idleWait := false } else s) s


/-- An entry enters the deque of engine h, or its overflow list when the deque is full (R277, R282, R317). -/
def placeEntry (h : Nat) (x : Entry) (s : State) : State :=
  let q := s.deque h
  if q.length < 64 then workSet (h / 12) (s.setDeque h (entIns x q))
  else
    let o := s.overflow h ++ [x]
    let s := s.setOverflow h o
    s.csf rRUSTAT 24 35 (max (s.cf rRUSTAT 24 35) (min o.length 4095))

/-- The order in which STEAL of engine e searches (R286). -/
def stealOrder (s : State) (e : Nat) : List Nat :=
  let c := e / 12
  (List.range 12).map (fun k => 12 * c + (e % 12 + k) % 12)
    ++ (List.range 11).flatMap fun j =>
      let d := (c + j + 1) % 12
      (List.range 12).map fun k => 12 * d + (tget 0 s.rel.ptr d + k) % 12

/-- DED of engine e, and the tenant it is dedicated to. -/
def dedTenant (s : State) (e : Nat) : Option Nat := if s.cb (rDEDIC e) 0 then some (s.cf (rDEDIC e) 7 18) else none

/-- An entry is eligible for engine e (R285). -/
def eligible (s : State) (e : Nat) (x : Entry) : Bool :=
  admits x.recw e && (s.e e).run.inService
    && (match dedTenant s e with
      | some t => decide (t = x.tenant)
      | none => !x.sealed)

/-! ### Where an activation is -/

/-- The engine that runs an activation of context k. -/
def engOf (s : State) (k : Nat) : Option Nat :=
  (s.eng.find? fun p => match p.2.run.entry with
    | some x => x.ctx = k
    | none => false).map Prod.fst

def anyEntry (t : Tbl (List Entry)) (k : Nat) : Bool := t.any fun p => p.2.any fun x => x.ctx = k

/-- An activation of context k is released and has not ended. -/
def ctxLive (s : State) (k : Nat) : Bool :=
  (engOf s k).isSome || anyEntry s.rel.deques k || anyEntry s.rel.overflow k || s.rel.waiting.any (fun x => x.ctx = k)
    || s.rel.yielded.any (fun p => p.2.ctx = k)

/-- A staged boundary of context k awaits its release. -/
def ctxStaged (s : State) (k : Nat) : Bool := s.rel.staged.any fun x => x.ctx = k

/-! ### Homes (R323) -/

/-- The home slice of a line. -/
def homeOf (l : Nat) : Nat := 3 * Nat.xor (Nat.xor (l % 4) (l / 256 % 4)) (l / 65536 % 4) + l / 4 % 3

/-- The set of a line at its home. -/
def setOf (l : Nat) : Nat := l / 12 % 4096

def State.modHome (s : State) (f : Home → Home) : State := { s with home := f s.home }

/-- The committed entry of a line. -/
def State.hl (s : State) (l : Nat) : Option HLine := tget none s.home.lines l
def State.setHl (s : State) (l : Nat) (x : Option HLine) : State :=
  s.modHome fun h => { h with lines := tset none h.lines l x }
def State.modHl (s : State) (l : Nat) (f : HLine → HLine) : State := s.setHl l ((s.hl l).map f)

/-- Puts messages in flight, in order. -/
def sendAll (ms : List Msg) (s : State) : State := ms.foldl (fun s m => send m s) s

/-- The clusters of some engines. -/
def clustersOf (es : List Nat) : List Nat := (es.map (· / 12)).eraseDups

/-- Changes the transaction of a line. -/
def modTxn (l : Nat) (f : Txn → Txn) (s : State) : State :=
  s.modHome fun h => { h with txns := h.txns.map fun t => if t.line = l then f t else t }

/-- Cluster c has still to accept an INV or RCL for line l. -/
def invsOut (s : State) (c l : Nat) : Bool :=
  s.home.net.any fun m => match m with
    | .inv x y _ => x / 12 = c && y = l
    | .rcl x y => x / 12 = c && y = l
    | _ => false

/-- INV to these engines about line l, outside the table of R328. The line's transaction awaits their IACKs, or one of its own
keeps the line BUSY until the last has come (R327, R337). -/
def awaitInv (l : Nat) (byp : Bool) (es : List Nat) (s : State) : State :=
  if es.isEmpty then s
  else
    let s := sendAll (es.eraseDups.map fun e => .inv e l byp) s
    if s.home.txns.any fun t => t.line = l then
      modTxn l (fun t => { t with acks := (t.acks ++ clustersOf es).eraseDups }) s
    else
      (s.modHl l fun x => { x with busy := true }).modHome fun h =>
        { h with txns := h.txns ++ [{ line := l, req := .mgmt, tenant := 0, kind := .inval, acks := clustersOf es,
                                      owner := none, unc := false, place := 0 }] }

/-- A tentative line of a committed activation that its PUBLISH, in flight, has still to publish (R334). -/
def publishing (s : State) (t : TLine) : Bool :=
  t.lock && s.home.net.any fun m => match m with
    | .publish _ k h => k = t.ctx && h = homeOf t.line
    | _ => false

/-- DISCARD of context k at the home slices that `at_` admits: the tentative lines go, their locks clear, and each
HOLDER is sent INV (R334). Lines of a committed activation that still await their PUBLISH stay. -/
def homeDiscard (k : Nat) (at_ : Nat → Bool) (s : State) : State :=
  let mine := fun (t : TLine) => t.ctx = k && at_ (homeOf t.line) && !publishing s t
  let ts := s.home.tents.filter mine
  let s := s.modHome fun h => { h with tents := h.tents.filter fun t => !mine t }
  ts.foldl (fun s t =>
    let s := if t.lock then s.modHl t.line fun x => { x with lock := false } else s
    awaitInv t.line true t.holder.toList s) s

/-- A tentative write of context k. -/
def wrtOf (k : Nat) : Msg → Bool
  | .wrt _ _ c _ _ _ => c = k
  | _ => false

/-- A T copy for context k on its way to an engine. -/
def copyOf (k : Nat) : Msg → Bool
  | .data _ _ g _ _ _ => g = .t k
  | _ => false

/-- The buffered stores of an activation of context k lose their words: their entries are freed when they come to drain. -/
def Engine.voidStores (k : Nat) (g : Engine) : Engine :=
  g.modMem fun m => { m with sb := m.sb.map fun x =>
    if x.act && x.kind = .data && x.ctx = k then { x with en := 0, openE := false, phase := 0 } else x }

/-- Everything of an activation of context k outside its engine goes: tentative lines, context watches (R650), pooled
stores, a yielded entry, T copies in flight, tentative writes in flight, in a retry table or still in the buffer of the engine that
it yielded (R311). -/
def discardCtx (k : Nat) (s : State) : State :=
  let s := homeDiscard k (fun _ => true) s
  let s := s.modHome fun h =>
    { h with cwatches := h.cwatches.filter fun w => w.ctx ≠ k,
             net := h.net.filter fun m => !(wrtOf k m || copyOf k m), retry := h.retry.filter fun t => !wrtOf k t.msg }
  let s := (s.rel.yielded.filter fun p => p.2.ctx = k).foldl (fun s p => s.modE p.1 (Engine.voidStores k)) s
  s.modRel fun r => { r with pool := r.pool.filter (fun p => p.ctx ≠ k), yielded := r.yielded.filter fun p => p.2.ctx ≠ k }

/-- The end of an activation is announced to the Septeg engine, with what the record held for it when it was staged (R273, R462). -/
def outNote (x : Entry) (dropped : Bool) (s : State) : State :=
  let n : OutNote := { ctx := x.ctx, rel := x.rel, dropped := dropped, tenant := x.tenant, outIdx := recF x.recw 11 0 7 }
  { s with net := { s.net with notices := s.net.notices ++ [n] } }

/-- A drop as the record and the notices show it (R311, R463); OUTPUT_PUBLISH builds the frames (log entry 85). -/
def dropNote (x : Entry) (s : State) : State := outNote x true (s.cs (rCtx x.ctx 28) (s.cg (rCtx x.ctx 28) + 1))

/-- The activations of context k that wait for it and whose deadline has passed are dropped (R310). -/
def dropLate (k : Nat) (s : State) : State :=
  let late := fun (x : Entry) => x.ctx = k && decide (x.deadline ≤ s.net.devTime)
  (s.rel.waiting.filter late).foldl (fun s x => dropNote x s)
    (s.modRel fun r => { r with waiting := r.waiting.filter fun x => !late x })

/-- The end of an activation as its record shows it (R270, R276, R302, R311): a next activation that waited for it is
placed, unless its deadline has passed (R310); or DIS makes the context dormant; or it is armed again. -/
def ctxEnd (k : Nat) (s : State) : State :=
  let s := dropLate k s
  match s.rel.waiting.find? fun x => x.ctx = k with
  | some x =>
    placeEntry (recHome x.recw) x
      (setCtxState k 3 (s.modRel fun r => { r with waiting := r.waiting.filter fun y => y.ctx ≠ k }))
  | none =>
    if ctxDis s k && !ctxStaged s k then (setCtxState k 1 s).csf (rCtx k 0) 22 22 0 else setCtxState k 2 s

/-- A dropped activation is counted and its output blocks are announced as dropped (R311, R463). -/
def dropCount (x : Entry) (s : State) : State := ctxEnd x.ctx (dropNote x s)

/-! ### The end of a run on an engine -/

/-- Every watch of engine e goes, the reservation's included. -/
def unwatchAll (e : Nat) (s : State) : State :=
  (s.modHome fun h => { h with watches := h.watches.filter fun w => w.e ≠ e }).modE e
    fun g => g.modMem fun m => { m with resv := none, watch := [] }

/-- TID.ACT, SAD.SD and SAD.UD become 0; the engine runs nothing; a pending budget exception is discarded (R237, R302,
R311). -/
def endRun (e : Nat) (s : State) : State :=
  (unwatchAll e s).modE e fun g =>
    let g := g.modRegs fun r => { r with tid := setBit r.tid 27 false, sad := setFld r.sad 5 14 0 }
    let g := g.modPipe fun p => { p with budgetPend := false, budgetRaised := false, dlPend := false }
    let g := g.modMem fun m => { m with defer := [], fails := [] }
    g.modRun fun r => { r with entry := none, use := 0, cphase := .idle, dlHeld := none }

/-- The tentative words that the engine still holds go: T copies and buffered stores of the activation (R311). -/
def dropTentative (e : Nat) (s : State) : State :=
  s.modE e fun g => g.modMem fun m =>
    { m with l1d := m.l1d.filter (fun x => x.st ≠ .t), sb := m.sb.filter (fun x => !(x.act && x.kind = .data)) }

/-- The deadline abort on an engine whose TID.ACT is 1 (R236, R257, R311): results that have not landed are discarded, a stalled
instruction has no effect, and vector 03 is to be entered. Faults that are due stay pending (R224). An entry that had begun and
waits for a line ends here as well, without having changed a register (DESIGN CHOICE, log entry 65). -/
def abortEngine (e : Nat) (s : State) : State :=
  match (s.e e).run.entry with
  | none => s
  | some x =>
    if !(s.e e).act then s
    else
      let s := s.modE e fun g =>
        let x := excAt vDeadline 0 g.regs.pc
        let g := g.modPipe fun p =>
          { p with pend := [], slot := none, skip := false, held := false, exc := some x, accH := g.regs.ph, accL := g.regs.pl,
                   descIn := none }
        let g := g.modMem fun m => { m with unc := [], ctlAns := none }
        g.modRun fun r => { r with stall := none }
      dropCount x (discardCtx x.ctx (endRun e (dropTentative e s)))

/-! ### The mantle's frame (R290, R302) -/

/-- Returns to the frame that the context switch wrote: SAD.MD falls by 1, the frame's registers are restored, the code
goes on at word 11 (octal), and SPC is word 15 (octal). No result and no divide fault of the activation reaches the mantle. -/
def mantleReturn (e : Nat) (s : State) : State :=
  let g := s.e e
  let d := depthOf g.regs.sad 2 - 1
  let base := saveArea 2 + 16 * d
  let fr := frameRead s.freeCtr g (fun o => tget 0 g.mem.near o) base
  let pt := fr.getD 9 0
  redirect e ((frameCtr e base s).modE e fun g =>
    let g := g.restoreFrame fr
    let g := g.modRegs fun r =>
      { r with sad := setDepth r.sad 2 d, cs := mkSel 0 (fld pt 0 7), pc := fld pt 8 35, spc := fr.getD 13 0 }
    let g := g.modPipe fun p => { p with pend := [], divDue := none, slot := none, skip := false }
    g.sync)

end Sys2Proof.Machine
end

