-- ==== Sys2Proof/Machine/Entry.lean ====
section
/-! DEFINITION. Recognition and exception entry (R216 to R229), the engine reset scope (R99, R626), and the engine events
of results, budget, reservation, machine-check hold and IREQ (R197, R295, R122, R235, R653). -/

namespace Sys2Proof.Machine

/-! ### Engine reset (R99, R625, R626) -/

/-- The engine reset scope: the registers of R71 at reset, caches, descriptor cache and predictor invalidated without
write-back; near store, control store and debug registers kept. The engine starts at vector 0. -/
def Engine.resetScope (g : Engine) : Engine :=
  { g with
    regs := { Regs.reset with dbg := g.regs.dbg, dstat := g.regs.dstat }
    eff := { Eff.reset with dbg := g.regs.dbg }
    pipe := .reset
    mem := { EMem.reset with near := g.mem.near, ntag := g.mem.ntag, nbad := g.mem.nbad }
    run := { g.run with use := 0, cphase := .idle, stealing := false, idleWait := false, pearl := false,
                        stall := none, resuming := none, haltReq := none } }

/-- A third fault (R229): the engine alone is reset; its recovery is due with cause 03, and until it comes the engine
issues nothing (R513, R515). -/
def thirdFault (e : Nat) (s : State) : State :=
  failEngine e 3 ((unwatchAll e s).modE e fun g => (g.resetScope).modRun fun r => { r with inReset := true })

/-! ### Levels and vectors (R98, R217, R219) -/

/-- The lowest level at which a vector can be taken (R217). -/
def vecLow (v : Nat) : Nat :=
  if v ≤ 4 ∨ v = vEreq ∨ v = vWork then 2 else if v = vDivide ∨ v = vRet ∨ v = vBrk then 0 else 1

/-- A descriptor that entry needs: in the descriptor cache, or a measured stall of one line read, which the entry remembers
(R227). -/
def entryDescr (e t i : Nat) (k : DcEntry → State → State) (s : State) : State :=
  let j := remapIdx s e t i
  match (s.e e).dcFind t j with
  | some x => k x (s.modE e fun g => g.dcTouch t j)
  | none => descStall e (.exceptionEntry e) (descAddr s t j / 8) t j 0
      (s.modE e fun g => g.modPipe fun p => { p with exc := p.exc.map fun x => { x with missed := (t, j) :: x.missed } })

/-- The target level of R219. -/
def pickLevel (e low : Nat) (k : Nat → State → State) (s : State) : State :=
  let g := s.e e
  let t := g.tenant
  let m := max g.level low
  let up := entryDescr e t 0 fun d s => k (if descAbsent d.d1 then 2 else 1) s
  if m = 2 || t = 0 then k 2 s
  else if m = 1 then up s
  else entryDescr e t 1 (fun d s => if descAbsent d.d1 then up s else k 0 s) s

/-- The checks of R226 on the vector segment. -/
def vecOk (s : State) (lvl v : Nat) (d : DcEntry) : Bool :=
  let base := fld d.d0 1 35 + 4 * v
  fld d.d1 0 2 = tyCode && bit d.d1 5 && decide (fld d.d1 18 19 ≤ lvl) && decide (4 * v + 4 ≤ descSize d.d1)
    && ((List.range 4).map (base + ·)).all (fun a => (regionCause s tyCode lvl (bit d.d0 0) a).isNone)

/-- The fetch at vector v (R227): the line buffer reads the vector's two lines; a measured stall where the line of the handler's
first instruction misses (R183); `bad` acts where that line is poisoned (R228). -/
def vecFetch (e v : Nat) (d : DcEntry) (bad k : State → State) (s : State) : State :=
  let l := (fld d.d0 1 35 + 4 * v) / 8
  let s := fetchRead e l (redirect e s)
  match (s.e e).fetchLine l with
  | none => fetchStall e (.exceptionEntry e) l s
  | some x => if x.pois then bad s else k s

/-- The old ST as the frame holds it: DS as the return point requires (R227, R238). -/
def savedSt (g : Engine) (x : Exc) : Word := if x.ds then setBit g.regs.st 4 true else g.regs.st

/-- The words of a frame (R103). -/
def frameWords (g : Engine) (x : Exc) : List Word :=
  (List.range 8).map g.w ++ [savedSt g x, g.regs.spc, g.regs.ph, g.regs.pl, g.regs.tid, 0, 0, 0]

/-- ST after entry at a level (R76). -/
def entrySt (st : Word) (lvl : Nat) : Word := place 0 1 lvl ||| bitAt 2 true ||| (st &&& maskW 6 23)

/-- SPC after entry (R78). -/
def entrySpc (g : Engine) (x : Exc) : Word := place 0 7 (fld g.regs.cs 12 19) ||| place 8 35 x.ret

/-- FINFO after entry (R220). -/
def entryFinfo (g : Engine) (x : Exc) : Word :=
  place 0 5 x.vec ||| place 6 11 x.cause ||| place 12 15 x.seg ||| place 16 17 g.level

/-- The state changes of an entry at level `lvl` through descriptor (t, i), the frame written at `base` and SAD set to
`sad` (R226), in 9 cycles, counted at the level entered (DESIGN CHOICE, log entry 94), with 8 more where the vector segment's
descriptor missed (R227). The entry of a fetch fault at an
instruction that a repeat of count 0 skips clears the skip: SPC is that instruction, and a RETX executes it (DESIGN CHOICE, log
entry 66). -/
def enterAt (e lvl base t i : Nat) (sad : Word) (x : Exc) (s : State) : State :=
  let s := s.modE e fun g =>
    let g' := (g.nearPuts base (frameWords g x)).modRegs fun r =>
      { r with sad := sad, spc := entrySpc g x, st := entrySt g.regs.st lvl, cs := mkSel t i, pc := 8 * x.vec,
               finfo := entryFinfo g x, foff := x.off,
               dstat := if g.run.halted then setFld r.dstat 8 35 (8 * x.vec) else r.dstat }
    let g' := g'.modPipe fun p => { p with exc := none, slot := none, skip := false, held := false }
    let g' := g'.modRun fun r => { r with idleWait := false }
    { g'.sbClose with eff := { g'.eff with open_ := false } }
  let s := fixed e (if x.missed.contains (t, remapIdx s e t i) then 17 else 9) (resvClear e s)
  match (s.e e).run.stepMode with
  | .step => haltDue e 3 0 s
  | _ => s

/-- Entry at the double-fault vector (R104, R228): frame 15 of the M save area, SAD.DF, depths unchanged; a fault there is
a third fault. -/
def doubleEntry (e : Nat) (x : Exc) (s : State) : State :=
  entryDescr e 0 0 (fun d s =>
    if vecOk s 2 vDouble d then
      vecFetch e vDouble d (thirdFault e)
        (fun s => enterAt e 2 (saveArea 2 + 240) 0 0 (setBit (s.e e).regs.sad 15 true) x s) s
    else thirdFault e s) s

/-- The entry of an exception fails: a double fault whose cause is the vector that failed; FOFF stays (R228). -/
def entryFails (e : Nat) (x : Exc) (s : State) : State :=
  let y := { x with vec := vDouble, cause := x.vec, seg := 0, missed := [] }
  doubleEntry e y (detect e y s)

/-- Entry for an exception that has been recognised (R226). -/
def runEntry (e : Nat) (x : Exc) (s : State) : State :=
  if dfBit (s.e e).regs.sad then thirdFault e s
  else if x.vec = vDouble then doubleEntry e x s
  else pickLevel e (vecLow x.vec) (fun lvl s =>
    let g := s.e e
    let d := depthOf g.regs.sad lvl
    let t := if lvl = 2 then 0 else g.tenant
    let i := if lvl = 0 then 1 else 0
    if 15 ≤ d then entryFails e x s
    else entryDescr e t i (fun ds s =>
      if vecOk s lvl x.vec ds then
        vecFetch e x.vec ds (entryFails e x)
          (enterAt e lvl (saveArea lvl + 16 * d) t i (setDepth g.regs.sad lvl (d + 1)) x) s
      else entryFails e x s) s) s

/-- Whether an exception is a trap (R216). -/
def isTrap (x : Exc) : Bool := x.vec = vMvc || x.vec = vBrk || x.vec = vSvc

/-- What takes the entry when a divide fault or a store's data loss is due after the wait of R223 (R225): the dropped
instruction is executed again. A divide fault that DRAIN or the like raises goes first (R224). -/
def displaced (g : Engine) (x : Exc) : Exc :=
  if x.vec = vDivide then x
  else
    let ret := if isTrap x then g.regs.pc else x.ret
    match g.pipe.divDue with
    | some a => { excAt vDivide (0o40 + a) ret with ds := x.ds }
    | none =>
    match g.pipe.stLoss with
    | pa :: _ => { vec := vLoss, cause := 3, seg := 0o17, off := mkW pa, ret := ret, ds := x.ds }
    | [] => x

/-- What an exception consumes when it is taken (R237, R241 to R243, R295). A trap that is taken has been executed (R213). -/
def consume (e : Nat) (x : Exc) (s : State) : State :=
  if isTrap x then count e cPINS 1 s
  else if x.vec = vDivide then s.modE e fun g => g.modPipe fun p => { p with divDue := none }
  else if x.vec = vLoss && x.cause = 3 then s.modE e fun g => g.modPipe fun p => { p with stLoss := p.stLoss.drop 1 }
  else if x.vec = vStore then s.modE e fun g => g.modMem fun m => { m with fails := m.fails.drop x.nrec }
  else if x.vec = vBudget then
    let k := (s.e e).ctx
    let s := s.modE e fun g => g.modPipe fun p => { p with budgetPend := false }
    s.csf (rCtx k 29) 0 17 (s.cf (rCtx k 29) 0 17 + 1)
  else s

/-- Entry begins for an exception (R226). -/
def beginEntry (e : Nat) (x : Exc) (s : State) : State :=
  let y := { x with begun := true }
  runEntry e y ((detect e y (consume e y s)).modE e Engine.sync)

/-- The recognition of an exception of an instruction, after every outstanding result has landed (R222 to R225), then entry;
an entry that has begun goes on. -/
def recognise (e : Nat) (x : Exc) (s : State) : State :=
  if x.begun then runEntry e x s
  else if x.vec = vDeadline then beginEntry e x s
  else
    let s := waitTo e (s.e e).lastLanding s
    beginEntry e (displaced (s.e e) x) s

/-- The recognition of what a boundary takes (R113, R223, R224). A deadline abort that waited for the level to fall below M
discards the activation here and waits for nothing (R236). For any other the outstanding results land first; what the boundary
then takes is entered, if anything. -/
def recogniseAt (e : Nat) (x : Exc) (s : State) : State :=
  if x.vec = vDeadline then beginEntry e x (abortEngine e s)
  else
    let s := waitTo e (s.e e).lastLanding s
    match boundaryExc s e with
    | some y => beginEntry e y s
    | none => s

/-- Whether engine e can begin or continue an entry: it runs, and no instruction of it waits. -/
def canEnter (g : Engine) : Bool :=
  g.run.inService && !g.run.inReset && !g.run.halted && !g.run.pearl && g.run.stall.isNone && g.run.cphase = .idle
    && !(g.run.stealing && g.pipe.exc.isNone)

/-- EXCEPTION_ENTRY of engine e: the detected exception, or the first that the boundary recognises (R224). -/
def entryI (e : Nat) (s : State) : State :=
  let g := s.e e
  if !canEnter g then s
  else match g.pipe.exc with
  | some x => recognise e x s
  | none =>
    match boundaryExc s e with
    | some x => recogniseAt e x s
    | none => s

/-- EXCEPTION_ENTRY (R226). -/
def execExceptionEntry (e : Nat) (s : State) : Host.Outcome State Fault Refusal := onEngine e true (entryI e s)

/-! ### Landing, budget, reservation (R197, R237, R295, R122) -/

/-- LONG_OP_LANDING (R197): the issue clock reaches the landing of the first outstanding long operation; every result
due by then lands, and a divide by zero becomes due. Sent before that cycle, the row runs the issue clock forward to it (DESIGN CHOICE,
log entry 93). -/
def execLongOpLanding (e : Nat) (s : State) : Host.Outcome State Fault Refusal :=
  onEngine e true
    (let g := s.e e
     match g.pipe.pend.find? fun p => p.unit ≠ .none with
     | some p => if g.run.stall.isSome || g.run.halted then s else waitTo e p.at_ s
     | none => s)

/-- The remaining budget of the activation that engine e runs (R294). -/
def remaining (g : Engine) : Option Int := g.run.entry.map fun x => x.remain - g.run.use

/-- BUDGET_EXHAUSTED (R295): the charge has reached the budget, and the exception becomes pending, once in a run. -/
def execBudgetExhausted (e : Nat) (s : State) : Host.Outcome State Fault Refusal :=
  onEngine e true
    (let g := s.e e
     match remaining g with
     | some r =>
       if g.act && decide (r ≤ 0) && !g.pipe.budgetRaised then
         s.modE e fun g => g.modPipe fun p => { p with budgetPend := true, budgetRaised := true }
       else s
     | none => s)

/-- RESERVATION_EXPIRY (R122): at the 4,096th engine cycle after the LDR retired (R206). -/
def execReservationExpiry (e : Nat) (s : State) : Host.Outcome State Fault Refusal :=
  onEngine e true
    (match (s.e e).mem.resv with
     | some r =>
       resvClear e (s.modE e fun g => g.modPipe fun p => { p with cyc := max p.cyc (retireAt r.setAt 1 + 4096) })
     | none => s)

/-- MACHINE_CHECK_HOLD_TIMEOUT (R235): a machine check has been pending for 10 µs without being recognised; the count
stands still in Pearl and Slate (R611), under WFRZ while halted (R600), and stopped engines have none. -/
def execMachineCheckHoldTimeout (e : Nat) (s : State) : Host.Outcome State Fault Refusal :=
  onEngine e true
    (let g := s.e e
     if s.cb (rIPEND e) 0 && g.run.inService && !g.run.inReset && !g.run.pearl && !s.sys.slate.contains (e / 12)
         && !(g.run.halted && bit (g.dbgE 0o60) 13) then
       failEngine e 4 (bringTo (max (s.net.devTime + 10 * usU) g.run.quiet) s)
     else s)

/-! ### IREQ (R233, R653) -/

/-- A write to IREQ stores the word and sets IPEND.EREQ. -/
def ireqStore (e : Nat) (w : Word) (s : State) : State := (s.cs (rIREQ e) w).csf (rIPEND e) 1 1 1

/-- IREQ_WRITE (R653). Every agent whose access reaches the word is acted on: the mantle's descriptors and Welana's use
keep others away (R234). -/
def execIreqWrite (ag : Agent) (e : Nat) (w : Word) (s : State) : Host.Outcome State Fault Refusal :=
  onEngine e (match ag with
    | .engine n => decide (n < 144)
    | .mover c => decide (c < 12)
    | _ => true) { ireqStore e w s with answer := .ok }

end Sys2Proof.Machine
end

