-- ==== Sys2Proof/Machine/Micro.lean ====
section
/-! DEFINITION. The control store (R245 to R265): the microword, its check, the customer routines of CUST0 to CUST31, and
what a failing microword does. -/

namespace Sys2Proof.Machine

/-! ### Banks (R245, R259, R266) -/

def CStore.bank (c : CStore) (b : Bool) : Tbl Microword := if b then c.bank1 else c.bank0
def CStore.dir (c : CStore) (b : Bool) : Tbl Word := if b then c.dir1 else c.dir0
def CStore.setBank (c : CStore) (b : Bool) (t : Tbl Microword) : CStore :=
  if b then { c with bank1 := t } else { c with bank0 := t }

/-- CSSTAT.CBANK. -/
def cbank (s : State) (e : Nat) : Bool := s.cb (rCSSTAT e) 24

/-- The bank from which engine e executes CUST (R266): once the switch time has come, an activation released before it
keeps the old bank. -/
def custBank (s : State) (e : Nat) : Bool :=
  let b := cbank s e
  match s.wel.bankSwitch with
  | some t =>
    let old := (s.e e).act && (match (s.e e).run.entry with
      | some x => decide (x.rel < t)
      | none => false)
    if s.wel.bankDone && old then !b else b
  | none => b

/-- The directory word of slot n (R259). -/
def custDir (s : State) (e n : Nat) : Word := tget 0 ((s.e e).cstore.dir (custBank s e)) n

/-- The microword at control-store address `a`, with the bank that serves the customer addresses. -/
def microAt (g : Engine) (b : Bool) (a : Nat) : Microword :=
  if a < 1792 then tget 0 g.cstore.vendor a else tget 0 (g.cstore.bank b) (a - 1792)

/-! ### ALU and conditions (R250, R252) -/

/-- An ALU operation of R252 on SRCA and SRCB. -/
def microAlu (op : Nat) (x y : Word) : AluR :=
  match op with
  | 0 => aluZN x
  | 1 => addR x y false
  | 2 => subR x y false
  | 3 => aluZN (x &&& y)
  | 4 => aluZN (x ||| y)
  | 5 => aluZN (x ^^^ y)
  | 6 => shlR x y.toNat
  | 7 => shrR x y.toNat
  | 8 => sarR x y.toNat
  | 9 => absR x
  | 10 => aluZN (if sgn x ≤ sgn y then x else y)
  | 11 => aluZN (if sgn x ≤ sgn y then y else x)
  | 12 => { aluSat (sgn x + sgn y) with o := 0 }
  | 13 => { aluSat (sgn x - sgn y) with o := 0 }
  | 14 => aluZN (mkW (clzW x))
  | _ => aluZN x

/-- The four flags of an operation: Z and N of its result (R137), C and V where the operation defines them, else free
(log entry 12). -/
def microFlags (ctr k : Nat) (a : AluR) : Word :=
  let r := a.res.getD 0
  znOf r ||| bitAt 8 (if bit a.m 8 then bit a.v 8 else Config.freeFlag ctr (2 * k))
    ||| bitAt 9 (if bit a.m 9 then bit a.v 9 else Config.freeFlag ctr (2 * k + 1))

/-- Execution within one microcoded instruction (R249 to R255): the state with what its microwords have done, the address, the
cycles since its issue and those of them that a WAIT took, temporaries, micro-flags as in ST, the previous ALU result, the
micro-return register, the reply words, and the control-window answers used. -/
structure MicroSt where
  s : State
  pc : Nat
  k : Nat
  wait : Nat
  t : List Word
  fl : Word
  prev : Word
  ret : Nat
  rep : List Word
  used : Nat
  /-- a load result for a temporary, which lands after the next microword (R255) -/
  late : Option (Nat × Word) := none
deriving DecidableEq, Repr

/-- How a routine ends: with its END microword, the state that it leaves, the cycles of its waits and the words that it stored to;
with an exception after `k` cycles; with a measured stall, in which case it is carried out from its start again; or with a
microword whose check fails. -/
inductive MicroEnd where
  | fin (s : State) (wait : Nat) (stored : List Nat)
  | fault (s : State) (k vec cause seg : Nat) (off : Word)
  | need (line t i seg : Nat)
  | miss (line : Nat)
  | ctl (off n : Nat)
  | buffer
  | hold (c : Nat)
  | bad (addr : Nat)
deriving DecidableEq, Repr

/-- A microword operand (R251). -/
def microSrc (g : Engine) (a b : Nat) (ms : MicroSt) (k : Word) (c : Nat) : Word :=
  if c < 16 then g.w c
  else match c with
  | 16 => g.w a
  | 17 => g.w b
  | 18 => g.regs.ph
  | 19 => g.regs.pl
  | 20 => g.regs.st
  | 21 => k
  | 22 => ms.rep.headD 0
  | 23 => 0
  | _ => ms.t.getD (c - 24) 0

/-- The result that a microword writes to a register at cycle t (R251, R255). -/
def microRes (a b dst : Nat) (v : Word) (t : Nat) : List Pend :=
  if dst < 16 then [resW (.w dst) v t]
  else match dst with
  | 16 => [resW (.w a) v t]
  | 17 => [resW (.w b) v t]
  | 18 => [resW .ph v t]
  | 19 => [resW .pl v t]
  | 20 => [resF stFields v 0 t]
  | _ => []

/-- The conditions of R250 that an event outside the instruction makes true. -/
def condNow (s : State) (g : Engine) (c : Nat) : Bool :=
  match c with
  | 10 => match g.run.entry with
    | some x => decide (x.deadline ≤ s.net.devTime)
    | none => false
  | 11 => g.mem.sb.isEmpty
  | _ => false

/-- A microword's condition (R250). The reply to a load is present from the load on, since the model's stall for it ends with it;
a reply that marks a failure or poison has ended the instruction with its fault (R261). Queue grants come at their fixed cycle
(R256). The descriptor cache hit of a lookup, of which no encoding is given, is free (log entry 44). -/
def microCond (s : State) (e : Nat) (g : Engine) (ms : MicroSt) (c : Nat) : Bool :=
  match c with
  | 1 => !ms.rep.isEmpty
  | 3 => g.pipe.pend.all fun p => p.unit = .none
  | 4 => bit ms.fl 6
  | 5 => bit ms.fl 7
  | 6 => bit ms.fl 8
  | 7 => Config.freeFlag s.freeCtr (128 + ms.k)
  | 8 => resvLive s e
  | 9 => g.act
  | 12 => false
  | _ => c = 0 || c = 2 || condNow s g c

/-- A load microword: its words, checked under R91 and then read as a load reads them. -/
def microLoad (e seg n : Nat) (off : Int) (ms : MicroSt) : Sum MicroEnd MicroSt :=
  let s := ms.s
  let g := s.e e
  let sel := g.segSel seg
  match segCheck s e sel g.level g.tenant .load off n with
  | .fault v c o => .inl (.fault s ms.k v c seg o)
  | .failStore o => .inl (.fault s ms.k vAddr 2 seg o)
  | .need l t i => .inl (.need l t i seg)
  | .ok typ pas =>
    let a0 := pas.headD 0
    let g := g.dcTouch (fld sel 0 11) (remapIdx s e (fld sel 0 11) (fld sel 12 19))
    if isCtlAcc typ a0 then
      match g.mem.ctlAns with
      | some ws =>
        if ms.used + n ≤ ws.length then
          .inr { ms with s := s.setE e g, rep := (ws.drop ms.used).take n, used := ms.used + n }
        else .inl (.ctl (a0 - ctlBase) n)
      | none => .inl (.ctl (a0 - ctlBase) n)
    else match (if typ = tyNear then g.nearWords 0 pas else g.dataWords 0 pas) with
      | .ok ws =>
        let h := if typ = tyNear then g else g.l1Uses pas fun x => (g.sbWord x).isNone
        .inr { ms with s := s.setE e h, rep := ws }
      | .bad k c => .inl (.fault s (ms.k + 1) vLoss c seg (mkZ (off + k)))
      | .miss l => .inl (.miss l)

/-- A store microword, of an instruction of `cnt` cycles (R253): the state after it and the words it stored to. A store that is
declared failed at once makes its record (R242). -/
def microStore (e cnt seg : Nat) (off : Int) (v : Word) (ms : MicroSt) : Sum MicroEnd (State × List Nat) :=
  let s := ms.s
  let g := s.e e
  let sel := g.segSel seg
  match segCheck s e sel g.level g.tenant .store off 1 with
  | .fault v c o => .inl (.fault s ms.k v c seg o)
  | .failStore o => .inr (failRec e { cause := 2, seg := seg, off := o } s, [])
  | .need l t i => .inl (.need l t i seg)
  | .ok typ pas =>
    match storeWords e cnt typ seg off pas [v] (s.modE e fun g => g.dcTouch (fld sel 0 11) (remapIdx s e (fld sel 0 11) (fld sel 12 19))) with
    | some s => .inr (s, if typ = tyNear then [] else pas)
    | none => .inl .buffer

/-- The memory operation of a microword (R253). The operations of the vendor region (line, context store and control window) have
no operands in the spec and no effect here (log entry 44). -/
def microMem (m : Microword) (e cnt : Nat) (x y : Word) (ms : MicroSt) : Sum MicroEnd (MicroSt × List Nat) :=
  let seg := mfld m 42 45
  let off : Int := (x.toNat : Int) + sext 18 (mfld m 50 67)
  let load := fun (n : Nat) => (microLoad e seg n off ms).map id fun ms => (ms, [])
  match mfld m 38 41 with
  | 1 => load 1
  | 2 => load 2
  | 3 => (microStore e cnt seg off y ms).map id fun p => ({ ms with s := p.1 }, p.2)
  | _ => .inr (ms, [])

/-- A microword that names 26 octal after a load double has used its first word: the second follows (DESIGN CHOICE, log entry
70). -/
def microUsed (m : Microword) (ms : MicroSt) : MicroSt :=
  let loads := mfld m 38 41 = 1 || mfld m 38 41 = 2
  if !loads && (mfld m 23 27 = 22 || mfld m 28 32 = 22) && 1 < ms.rep.length then { ms with rep := ms.rep.drop 1 } else ms

/-- Runs a routine of a slot with directory word `d` from its present microword, at most `fuel` microwords. A result lands in the
cycle after its microword, one of a load a cycle later, and that of the END microword at the slot's distance (R255, R259). A CALL
whose DST is the micro-return register leaves its result there, not its return address (DESIGN CHOICE, log entry 95). -/
def microRun (e a b : Nat) (d : Word) (bank : Bool) (clk : Nat) : Nat → MicroSt → MicroEnd
  | 0, ms => .bad ms.pc
  | fuel + 1, ms =>
    let g := (ms.s.e e).landUpTo (clk + ms.k)
    let m := microAt g bank ms.pc
    if !microOk (decide (ms.pc < 1792)) m then .bad ms.pc
    else
      let seq := mfld m 0 3
      let kc := mkZ (sext 18 (mfld m 50 67))
      let x := microSrc g a b ms kc (mfld m 23 27)
      let y := microSrc g a b ms kc (mfld m 28 32)
      let al := microAlu (mfld m 19 22) x y
      let fl := microFlags ms.s.freeCtr ms.k al
      let c := mfld m 15 18
      if seq = 9 then .fault ms.s ms.k (mfld m 72 77) (mfld m 78 83) 0 0
      else match microMem m e (fld d 9 15) x y ms with
      | .inl r => r
      | .inr (mm, stored) =>
        let mm := microUsed m mm
        let loads := mfld m 38 41 = 1 || mfld m 38 41 = 2
        let res := if loads then mm.rep.headD 0 else al.res.getD 0
        let dst := mfld m 33 37
        let t := if seq = 8 then clk + fld d 16 22 + ms.wait else clk + ms.k + (if loads then 2 else 1)
        let fm := place 6 9 (mfld m 68 71)
        let s := mm.s.modE e fun g =>
          (g.posts (microRes a b dst res t)).posts (if fm = 0 then [] else [resF fm fl 0 t])
        let w := if seq = 4 && c = 3 then g.lastLong - (clk + ms.k) else 0
        let landed := match ms.late with
          | some (i, v) => ms.t.set i v
          | none => ms.t
        let next : MicroSt :=
          { mm with s := s, k := ms.k + 1 + w, wait := ms.wait + w, fl := fl, prev := al.res.getD 0,
                    t := if 24 ≤ dst && !loads then landed.set (dst - 24) res else landed,
                    late := if 24 ≤ dst && loads then some (dst - 24, res) else none,
                    ret := if dst = 21 then res.toNat else if seq = 5 then ms.pc + 1 else ms.ret }
        let go := fun (p : Nat) => microRun e a b d bank clk fuel { next with pc := p }
        let na := mfld m 4 14
        let yes := microCond s e g { ms with rep := mm.rep } c
        match seq with
        | 1 => go na
        | 2 => go (if yes then na else ms.pc + 1)
        | 3 => go (if yes then ms.pc + 1 else na)
        | 4 => if yes || decide (c = 3) then go (ms.pc + 1) else .hold c
        | 5 => go na
        | 6 => go ms.ret
        | 7 => go (na + ms.prev.toNat % 8)
        | 8 => .fin s ms.wait stored
        | _ => go (ms.pc + 1)

/-! ### CUST (R175, R261) -/

/-- What was delivered for one instruction alone goes with it. -/
def dropAnswers (e : Nat) (s : State) : State := s.modE e fun g => g.modMem fun m => { m with unc := [], ctlAns := none }

/-- The body of CUST. A routine that stalls has had no effect. -/
def custBody (i : Instr) (e n a b : Nat) (s : State) : State :=
  let s := if (s.e e).run.resuming.isSome then s else s.modE e fun g => g.modPipe fun p => { p with microFails := [] }
  let g := s.e e
  let d := custDir s e n
  let ms : MicroSt :=
    { s := s, pc := 1792 + fld d 1 8, k := 0, wait := 0, t := (List.range 8).map (Config.freeTemp s.freeCtr), fl := 0, prev := 0,
      ret := 0, rep := [], used := 0 }
  match microRun e a b d (custBank s e) g.pipe.clk 64 ms with
  | .fin s w stored => watchHit e true stored (fixed e (fld d 9 15 + w) (dropAnswers e (freeNext s).2))
  | .fault s k v c seg o => preciseFault e v c seg o (dropAnswers e (fixed e k s))
  | .need l t x seg => descStall e i l t x seg s
  | .miss l => loadMiss e i l false s
  | .ctl off k => stallOn e i (.ctl off (k = 2)) s
  | .buffer => stallOn e i .buffer s
  | .hold c => stallOn e i (.cond c) s
  | .bad addr => microFail e (if 1792 ≤ addr && custBank s e != cbank s e then addr + 256 else addr) i s

/-- CUST0 to CUST31 (R175, R261): a slot without a routine is an illegal instruction with cause 06. It interlocks as a reader of
PH and PL and as a writer of W`a` and ST, whatever its routine writes (DEDUCED, log entry 44). -/
def execCust (e n a b : Nat) (s : State) : Host.Outcome State Fault Refusal :=
  onEngine e (okAB a b && decide (n < 32))
    (issue { e := e, instr := .cust e n a b, len := 1, ill := if bit (custDir s e n) 0 then none else some 6,
             slotOk := false, rep := false, branch := false, need := 0, reads := [.w a, .w b, .ph, .pl],
             writes := [.w a, .st], unit := .none, seq := true } (custBody (.cust e n a b) e n a b) s)

/-! ### Rewrite and scrub (R263, R264) -/

/-- Where an address of CSERR.FADDR lies: below 1,792 the vendor region, below 2,048 the active bank, above the standby
bank; with the stored word, the golden word, and the store with the word replaced. -/
def microRead (s : State) (e addr : Nat) : Microword × Microword :=
  let c := (s.e e).cstore
  let b := cbank s e
  let gold := fun (b : Bool) => if b then s.wel.gold1 else s.wel.gold0
  if addr < 1792 then
    (tget 0 c.vendor addr, tget 0 (if s.cf (rCSSTAT e) 0 11 = s.wel.verVendor then s.wel.goldV else s.wel.newV) addr)
  else if addr < 2048 then (tget 0 (c.bank b) (addr - 1792), tget 0 (gold b) (addr - 1792))
  else (tget 0 (c.bank !b) (addr - 2048), tget 0 (gold !b) (addr - 2048))

/-- Welana writes its golden word at an address. -/
def microWrite (e addr : Nat) (s : State) : State :=
  let w := (microRead s e addr).2
  let b := cbank s e
  s.modE e fun g =>
    let c := g.cstore
    let c := if addr < 1792 then { c with vendor := tset 0 c.vendor addr w }
      else if addr < 2048 then c.setBank b (tset 0 (c.bank b) (addr - 1792) w)
      else c.setBank (!b) (tset 0 (c.bank !b) (addr - 2048) w)
    { g with cstore := c }

/-- CSTORE_SCRUB (R264): one word is read; a failing word is counted, rewritten, and sets MCAUSE.CSTORE. -/
def execCstoreScrub (e addr : Nat) (s : State) : Host.Outcome State Fault Refusal :=
  onEngine e (decide (addr < 2304))
    (if microOk (decide (addr < 1792)) (microRead s e addr).1 then s
     else microWrite e addr (mcause e 0 ((s.csf (rCSERR e) 0 11 addr).csat (rCSERR e) 24 35)))

end Sys2Proof.Machine
end

