-- ==== Sys2Proof/Machine/Commit.lean ====
section
/-! DEFINITION. COMMIT up to its locks, YIELD, STEAL and the context switch (R172, R173, R285 to R292, R296, R302, R303,
R307, R308). What follows the commit point is in Machine/Publish.lean. -/

namespace Sys2Proof.Machine

/-- A bound of R210 in engine cycles at the operating point in effect; part cycles are left out (log entry 9). -/
def boundCyc (s : State) (ns : Nat) : Nat := ns * 9 / ticksPerCycle s

/-- The running activation is a sealed tenant's, so that measured stalls are padded (R384). -/
def padding (g : Engine) : Bool := g.act && g.sealed

/-! ### COMMIT (R302, R303) -/

/-- The issue description of COMMIT and YIELD: an illegal instruction with cause 10 where TID.ACT is 0 (R220). -/
def actQ (i : Instr) (e u : Nat) (g : Engine) : Iss :=
  ctlQ i e (orCause (unused u) (if g.act then none else some 8)) false 0 [] [] false

/-- COMMIT (R302): the wait for results, a pending long-operation fault, microwords 1 to 6; then the drain step. -/
def execCommit (e u : Nat) (s : State) : Host.Outcome State Fault Refusal :=
  onEngine e (decide (u < 256))
    (issue (actQ (.commit e u) e u (s.e e)) (microcoded e (.commit e u) false fun s =>
      longFault e (fun s =>
        let s := s.modE e fun g => g.sbClose.modRun fun r => { r with cphase := .draining }
        stallOn e (.commit e u) .drain (fixed e 6 s)) (waitTo e (s.e e).lastLanding s)) s)

/-- The home slices that hold tentative lines of context k. -/
def commitHomes (s : State) (k : Nat) : List Nat :=
  ((s.home.tents.filter fun t => t.ctx = k).map fun t => homeOf t.line).eraseDups

/-- The engine is stopped by a failure whose recovery is due (R208, R515): it commits nothing. -/
def engineDown (s : State) (e : Nat) : Bool := (s.e e).run.inReset || s.wel.failed.any fun f => f.e = e

/-- The deadline of the activation that the engine runs has come (R22). -/
def deadlineGone (s : State) (g : Engine) : Bool :=
  match g.run.entry with
  | some x => g.run.dlHeld.isNone && decide (x.deadline ≤ s.net.devTime)
  | none => false

/-- COMMIT_BEGINS (R302, R303): the drain step has ended. A deadline that has come ends COMMIT with nothing committed (R22); so do
records; otherwise it begins and sends its lock messages. `stall` is the measured part of the drain step (R305). -/
def execCommitBegins (e stall : Nat) (s : State) : Host.Outcome State Fault Refusal :=
  onEngine e true
    (let g := s.e e
     let n := min stall (boundCyc s (if g.mem.fails.isEmpty then 2400 else 64000))
     if g.run.cphase ≠ .draining || !g.mem.sb.isEmpty || engineDown s e then s
     else if g.pipe.dlPend || deadlineGone s g then abortEngine e (measured e cPSMC n s)
     else
       let s := measured e cPSMC n (s.modE e fun g => g.modRun fun r => { r with cphase := .idle, stall := none })
       storeFailure e (fun s =>
         let hs := commitHomes s g.ctx
         let i := match g.run.stall with
           | some x => x.instr
           | none => .commit e 0
         stallOn e i (.locks hs)
           (fixed e 4 (s.modE e fun g => g.modRun fun r => { r with cphase := .locking n }))) s)

/-! ### YIELD (R307, R650) -/

/-- Moves the watches of one granule to context entries, where every home of it has a free one of 1,024 (R650). -/
def watchToCtx (e k : Nat) (w : WGran) (s : State) : Option State :=
  let ls := w.gran.lines.filter fun l => !s.home.cwatches.contains { ctx := k, line := l }
  let room := ls.all fun l =>
    decide ((s.home.cwatches.filter fun c => homeOf c.line = homeOf l).length < 1024)
  if room then
    some (s.modHome fun h =>
      { h with watches := h.watches.filter (fun x => !(x.e = e && x.idx = w.idx)),
               cwatches := h.cwatches ++ ls.map fun l => { ctx := k, line := l } })
  else none

/-- All watched granules of the engine: those that find room stay watched for the context, each other one becomes a
failure record. -/
def watchesToCtx (e k : Nat) (s : State) : List WGran × State :=
  (s.e e).mem.watch.foldl (fun p w =>
    match watchToCtx e k w p.2 with
    | some s => (p.1 ++ [w], s)
    | none => (p.1, failRec e { cause := 2, seg := w.seg, off := w.off } p.2)) ([], s)

/-- Deferred stores go to the pool of 4,096; those that find it full are failure records. -/
def defersToPool (e k : Nat) (s : State) : State :=
  (s.e e).mem.defer.foldl (fun s d =>
    if s.rel.pool.length < 4096 then s.modRel fun r => { r with pool := r.pool ++ [{ ctx := k, st := d }] }
    else failRec e { cause := 2, seg := d.seg, off := d.soff } s) s

/-- The words of YSEL: the indices of D0 to D7 (R270). -/
def ySel (g : Engine) (i : Nat) : Word :=
  let x := fun k => fld (g.d (4 * i + k)) 12 19
  place 0 7 (x 0) ||| place 8 15 (x 1) ||| place 16 23 (x 2) ||| place 24 31 (x 3)

/-- The effect of YIELD once results have landed. -/
def yieldGo (e : Nat) (s : State) : State :=
  match (s.e e).run.entry with
  | none => s
  | some x =>
    let s := fixed e 12 s
    let g := s.e e
    let k := x.ctx
    let s := s.css (rCtx k 15) ((List.range 8).map g.w ++
      [g.regs.st, place 0 7 (fld g.regs.cs 12 19) ||| place 8 35 (g.regs.pc + 1), ySel g 0, ySel g 1])
    let s := setCtxState k 5 s
    let wk := watchesToCtx e k (defersToPool e k s)
    let s := wk.2
    let nd := (s.rel.pool.filter fun p => p.ctx = k).length
    let y : Entry := { x with kind := .resumed, remain := x.remain - g.run.use,
                              carry := { fails := (s.e e).mem.fails, grans := wk.1, ndef := nd } }
    let s := s.modE e fun g => g.sbClose.modMem fun m => { m with l1d := m.l1d.filter fun c => c.st ≠ .t }
    let s := s.modRel fun r => { r with yielded := r.yielded ++ [(e, y)] }
    mantleReturn e (endRun e s)

/-- YIELD (R307). -/
def execYieldI (e u : Nat) (s : State) : Host.Outcome State Fault Refusal :=
  onEngine e (decide (u < 256))
    (issue { actQ (.yieldI e u) e u (s.e e) with instr := .yieldI e u } (microcoded e (.yieldI e u) false fun s =>
      longFault e (yieldGo e) (waitTo e (s.e e).lastLanding s)) s)

/-- RESUMED_ENTRY_CLAIMABLE (R307): the yielding engine's stores of the activation are settled. -/
def execResumedEntryClaimable (k : Nat) (s : State) : Host.Outcome State Fault Refusal :=
  if 16384 ≤ k then .fault .noSuchUnit
  else .next (match s.rel.yielded.find? fun p => p.2.ctx = k with
    | some (e, x) =>
      if (s.e e).mem.sb.any fun b => b.act && b.ctx = k then s
      else placeEntry (recHome x.recw) x (s.modRel fun r => { r with yielded := r.yielded.filter fun p => p.2.ctx ≠ k })
    | none => s)

/-! ### STEAL (R173, R286, R288) -/

/-- What STEAL does before it searches: as CSYNC, then as FENCE.S; its search is a step of its own. -/
def stealBody (e u : Nat) (s : State) : State :=
  csyncThen e 0 (fenceStores e (.steal e u) .settle
    (fun s => s.modE e fun g => g.modRun fun r => { r with stealing := true })) s

/-- STEAL (R173). -/
def execSteal (e u : Nat) (s : State) : Host.Outcome State Fault Refusal :=
  onEngine e (decide (u < 256)) (issue (ctlQ (.steal e u) e (unused u) false 2 [] [] false)
    (microcoded e (.steal e u) false (stealBody e u)) s)

/-! ### The context switch (R290, R291, R308) -/

/-- The selectors of D0 to D7 from two words of four indices. -/
def selsOf (t : Nat) (a b : Word) : Tbl Word :=
  (List.range 8).foldl (fun d k =>
    let w := if k < 4 then a else b
    tset 0 d k (mkSel t (fld w (8 * (k % 4)) (8 * (k % 4) + 7)))) []

/-- The registers at the start of a fresh activation or a re-run (R291). -/
def freshRegs (x : Entry) (r : Regs) : Regs :=
  let ws := x.recw
  let t := x.tenant
  { r with
    w := (tset 0 (tset 0 (tset 0 (tset 0 [] 0 (mkW x.ctx)) 1 (timeHi x.rel)) 2 (timeLo x.rel)) 3 (mkW ((x.n + 2) % 3)))
    ph := 0, pl := 0, spc := 0
    st := place 0 1 (recF ws 0 17 18) ||| place 3 3 (recF ws 0 15 15) ||| place 16 17 (recF ws 0 19 20)
    cs := mkSel t (recF ws 7 0 7)
    pc := recF ws 7 8 35
    d := selsOf t (ws.getD 8 0) (ws.getD 9 0)
    tid := place 0 11 t ||| place 12 25 x.ctx ||| bitAt 26 x.sealed ||| place 27 27 1
    ectl := place 0 0 (recF ws 0 16 16) }

/-- The registers of a resumed activation, from its yield frame (R308). SPC begins at 0, as for a fresh one (DESIGN CHOICE, log entry
97). -/
def resumedRegs (s : State) (x : Entry) (r : Regs) : Regs :=
  let y := fun i => s.cg (rCtx x.ctx i)
  { freshRegs x r with
    w := (List.range 8).foldl (fun w k => tset 0 w k (y (15 + k))) []
    st := y 23, cs := mkSel x.tenant (fld (y 24) 0 7), pc := fld (y 24) 8 35
    d := selsOf x.tenant (y 25) (y 26) }

/-- The entry of the context debug table for a context (R602). -/
def ctxDebug (s : State) (k : Nat) : Option Nat :=
  (List.range 16).find? fun i => s.cb (dbgBlk + 0o1000 + 4 * i) 0 && s.cf (dbgBlk + 0o1000 + 4 * i) 4 17 = k

/-- BP2, BP3, BE2 and BE3 from the context debug table, and a halt on dispatch (R602). -/
def debugLoad (e k : Nat) (s : State) : State :=
  let set := fun (n : Nat) (w : Word) (s : State) => s.modE e fun g => g.modRegs fun r =>
    { r with dbg := tset (dbgReset n) r.dbg n w }
  match ctxDebug s k with
  | some i =>
    let b := dbgBlk + 0o1000 + 4 * i
    let c := setFld ((s.e e).dbg 0o60) 4 5 (s.cf b 2 3)
    let hod := s.cb b 1
    let s := set 0o60 c (set 0o63 (s.cg (b + 1)) (set 0o64 (s.cg (b + 2)) s))
    if hod then haltDue e 7 0 s else s
  | none => set 0o60 (setFld ((s.e e).dbg 0o60) 4 5 0) s

/-- The words of the mantle's frame (R290). -/
def mantleFrame (g : Engine) : List Word :=
  (List.range 8).map g.w ++ [setBit g.regs.st 6 true, place 0 7 (fld g.regs.cs 12 19) ||| place 8 35 (g.regs.pc + 1),
    g.regs.ph, g.regs.pl, setBit g.regs.tid 27 false, g.regs.spc, 0, 0]

/-- The carried records, watches and deferred stores of a resumed activation move to the engine (R308, R340, R650). -/
def takeCarry (e : Nat) (x : Entry) (s : State) : State :=
  let mine := (s.rel.pool.filter fun p => p.ctx = x.ctx).map PoolStore.st
  let s := s.modRel fun r => { r with pool := r.pool.filter fun p => p.ctx ≠ x.ctx }
  let s := s.modE e fun g => g.modMem fun m => { m with fails := x.carry.fails, watch := x.carry.grans, defer := mine }
  x.carry.grans.foldl (fun s w => w.gran.lines.foldl (fun s l => send (.watch e l w.idx) s) s) s

/-- FLTREC.DUR at the first issue of a re-run: the time since the detection in units of 10 ns; it stops at 3777 octal
(R514). -/
def rerunDur (x : Entry) (s : State) : State :=
  match x.kind with
  | .rerun => s.csf rFLTREC 25 35 (min 2047 ((s.net.devTime - s.wel.fltAt) / 640))
  | _ => s

/-- The committed copies of the activation's tentative lines leave the engine that takes it up, so that its loads reach those lines
at their homes (R309; DEDUCED, log entry 90). -/
def evictTent (e k : Nat) (s : State) : State :=
  ((s.home.tents.filter fun t => t.ctx = k).map TLine.line).foldl (fun s l =>
    if ((s.e e).l1Find l).isSome then l1Evict e l s else s) s

/-- The context switch with entry x (R290): `stall` is the measured time of the four context-store reads. Its 32 cycles count at the
level of the activation (DESIGN CHOICE, log entry 94). -/
def contextSwitch (e : Nat) (x : Entry) (stall : Nat) (s : State) : State :=
  let s := s.modE e fun g =>
    (g.modRegs fun r => { r with tid := setBit r.tid 27 true }).modRun fun r => { r with entry := some x, use := 0 }
  let s := measured e cPSMC (if x.sealed then boundCyc s 800 else min stall (boundCyc s 800)) s
  let s := resvClear e s
  let y := s
  let s := s.modE e fun g =>
    let fr := mantleFrame g
    let d := depthOf g.regs.sad 2
    let g := (g.modRegs fun r => { r with tid := setBit r.tid 27 false }).nearPuts (saveArea 2 + 16 * d) fr
    let g := g.modRegs fun r =>
      { (match x.kind with
          | .resumed => resumedRegs y x r
          | _ => freshRegs x r) with sad := setFld (setDepth r.sad 2 (d + 1)) 5 14 0 }
    let g := g.predClear.modMem fun m =>
      { m with lbuf := [], l1i := if g.run.l1iInval then [] else m.l1i, watch := [], fails := [], defer := [] }
    let g := g.modPipe fun p =>
      { p with pend := [], slot := none, skip := false, accH := 0, accL := 0, budgetPend := false, budgetRaised := false,
               dlPend := false, descIn := none }
    g.modRun fun r => { r with l1iInval := false, cphase := .idle }
  let s := match x.kind with
    | .resumed => takeCarry e x s
    | _ => s
  let s := debugLoad e x.ctx (setCtxState x.ctx 4 s)
  fixed e 32 (rerunDur x (evictTent e x.ctx (s.modE e Engine.sync)))

/-! ### The search (R286, R287, R289) -/

/-- The first queue of the order that holds an eligible entry, with that entry. -/
def searchFirst (s : State) (e : Nat) : List Nat → Option (Nat × Entry)
  | [] => none
  | q :: t => match (s.deque q).find? (eligible s e) with
    | some x => some (q, x)
    | none => searchFirst s e t

/-- DEEP admits Pearl (R609); while a debugger is attached it is emulated, with the same course (R588). -/
def pearlAllowed (s : State) : Bool := s.cf rPWRCTL 0 1 ≠ 0

/-- STEAL claimed nothing: the idle loop waits for IPEND.WORK where it is 0, in Pearl where that is allowed (R289, R609);
an engine whose TID.ACT is 1 does not wait. -/
def idleNow (e : Nat) (s : State) : State :=
  if s.cb (rIPEND e) 2 || (s.e e).act then s
  else s.modE e fun g => g.modRun fun r => { r with idleWait := true, pearl := pearlAllowed s }

/-- ST.Z as STEAL leaves it, and the code after it. -/
def stealDone (e : Nat) (z : Bool) (s : State) : State :=
  s.modE e fun g => (g.modRegs fun r => { r with st := setBit r.st 6 z }).modRun fun r => { r with stealing := false }

/-- The search and the claim. -/
def stealSearch (e stall : Nat) (s : State) : State :=
  let found := if (s.e e).act then none else searchFirst s e (stealOrder s e)
  let s := count e cPINS 1 s
  match found with
  | none =>
    idleNow e (setPc e ((s.e e).regs.pc + 1) (fixed e 64 (stealDone e false s)))
  | some (q, x) =>
    let s := s.setDeque q ((s.deque q).filter fun y => y.ctx ≠ x.ctx)
    let far := q / 12 ≠ e / 12
    let s := if far then s.modRel fun r => { r with ptr := tset 0 r.ptr (q / 12) ((q % 12 + 1) % 12) } else s
    contextSwitch e x stall (fixed e (if far then 48 else 16) (stealDone e true s))

/-- STEAL_SEARCH (R286): `stall` is the measured time of the context-store reads of a claim. -/
def execStealSearch (e stall : Nat) (s : State) : Host.Outcome State Fault Refusal :=
  onEngine e true
    (let g := s.e e
     if g.run.stealing && g.run.stall.isNone && g.pipe.exc.isNone && !g.run.halted && g.run.inService && !g.run.inReset
     then stealSearch e stall s else s)

/-- WORK_WAIT_TIMEOUT (R289): the wait of the idle loop ends, it leaves Pearl, clears IPEND.WORK and executes its STEAL
again. -/
def execWorkWaitTimeout (e : Nat) (s : State) : Host.Outcome State Fault Refusal :=
  onEngine e true
    (let g := s.e e
     if g.run.idleWait && !g.run.halted && g.run.inService && !g.run.inReset && !s.sys.slate.contains (e / 12) then
       let s := s.modE e fun g => (g.modRun fun r => { r with idleWait := false, pearl := false }).modRegs
         fun r => { r with pc := r.pc - 1 }
       issue (ctlQ (.steal e 0) e none false 2 [] [] false) (stealBody e 0) (s.csf (rIPEND e) 2 2 0)
     else s)

end Sys2Proof.Machine
end

