-- ==== Sys2Proof/Machine/EngStep.lean ====
section
/-! DEFINITION. Carrying out the instruction that a measured stall held (R180): the stall ends, and the instruction, which
has had no effect, is executed. -/

namespace Sys2Proof.Machine

/-- The state of an outcome; the state before where there is none. -/
def stOf (s : State) : Host.Outcome State Fault Refusal → State
  | .next t => t
  | _ => s

/-- Executes an engine's instruction; any other command changes nothing here. -/
def engStep (i : Instr) (s : State) : State :=
  match i with
  | .nop e u => stOf s (execNop e u s)
  | .csync e u => stOf s (execCsync e u s)
  | .drain e u => stOf s (execDrain e u s)
  | .fenceL e u => stOf s (execFenceL e u s)
  | .fenceS e u => stOf s (execFenceS e u s)
  | .fenceLS e u => stOf s (execFenceLS e u s)
  | .retx e u => stOf s (execRetx e u s)
  | .brk e u => stOf s (execBrk e u s)
  | .commit e u => stOf s (execCommit e u s)
  | .yieldI e u => stOf s (execYieldI e u s)
  | .steal e u => stOf s (execSteal e u s)
  | .mov e a b => stOf s (execMov e a b s)
  | .add e a b => stOf s (execAdd e a b s)
  | .sub e a b => stOf s (execSub e a b s)
  | .adc e a b => stOf s (execAdc e a b s)
  | .sbc e a b => stOf s (execSbc e a b s)
  | .and e a b => stOf s (execAnd e a b s)
  | .or e a b => stOf s (execOr e a b s)
  | .xor e a b => stOf s (execXor e a b s)
  | .andn e a b => stOf s (execAndn e a b s)
  | .not e a b => stOf s (execNot e a b s)
  | .neg e a b => stOf s (execNeg e a b s)
  | .cmp e a b => stOf s (execCmp e a b s)
  | .tst e a b => stOf s (execTst e a b s)
  | .shl e a b => stOf s (execShl e a b s)
  | .shr e a b => stOf s (execShr e a b s)
  | .sar e a b => stOf s (execSar e a b s)
  | .rol e a b => stOf s (execRol e a b s)
  | .addS e a b => stOf s (execAddS e a b s)
  | .subS e a b => stOf s (execSubS e a b s)
  | .negS e a b => stOf s (execNegS e a b s)
  | .abs e a b => stOf s (execAbs e a b s)
  | .absS e a b => stOf s (execAbsS e a b s)
  | .min e a b => stOf s (execMin e a b s)
  | .max e a b => stOf s (execMax e a b s)
  | .minu e a b => stOf s (execMinu e a b s)
  | .maxu e a b => stOf s (execMaxu e a b s)
  | .pack e a b => stOf s (execPack e a b s)
  | .unpk e a b => stOf s (execUnpk e a b s)
  | .clz e a b => stOf s (execClz e a b s)
  | .rdt e a u => stOf s (execRdt e a u s)
  | .mul e a b => stOf s (execMul e a b s)
  | .mulu e a b => stOf s (execMulu e a b s)
  | .mac e a b => stOf s (execMac e a b s)
  | .macS e a b => stOf s (execMacS e a b s)
  | .div e a b => stOf s (execDiv e a b s)
  | .divu e a b => stOf s (execDivu e a b s)
  | .rem e a b => stOf s (execRem e a b s)
  | .remu e a b => stOf s (execRemu e a b s)
  | .fadd e a b => stOf s (execFadd e a b s)
  | .fsub e a b => stOf s (execFsub e a b s)
  | .fmul e a b => stOf s (execFmul e a b s)
  | .fcmp e a b => stOf s (execFcmp e a b s)
  | .fneg e a b => stOf s (execFneg e a b s)
  | .fabs e a b => stOf s (execFabs e a b s)
  | .fmin e a b => stOf s (execFmin e a b s)
  | .fmax e a b => stOf s (execFmax e a b s)
  | .flt e a b => stOf s (execFlt e a b s)
  | .fix e a b => stOf s (execFix e a b s)
  | .fdiv e a b => stOf s (execFdiv e a b s)
  | .fsqrt e a b => stOf s (execFsqrt e a b s)
  | .faddD e a b => stOf s (execFaddD e a b s)
  | .fsubD e a b => stOf s (execFsubD e a b s)
  | .fmulD e a b => stOf s (execFmulD e a b s)
  | .fcmpD e a b => stOf s (execFcmpD e a b s)
  | .fnegD e a b => stOf s (execFnegD e a b s)
  | .fabsD e a b => stOf s (execFabsD e a b s)
  | .fltD e a b => stOf s (execFltD e a b s)
  | .fixD e a b => stOf s (execFixD e a b s)
  | .fdivD e a b => stOf s (execFdivD e a b s)
  | .fsqrtD e a b => stOf s (execFsqrtD e a b s)
  | .fcvtDF e a b => stOf s (execFcvtDF e a b s)
  | .fcvtFD e a b => stOf s (execFcvtFD e a b s)
  | .jr e a u => stOf s (execJr e a u s)
  | .callr e a b => stOf s (execCallr e a b s)
  | .fjmp e a b => stOf s (execFjmp e a b s)
  | .fcall e a b => stOf s (execFcall e a b s)
  | .fret e a u => stOf s (execFret e a u s)
  | .segld e a b => stOf s (execSegld e a b s)
  | .seginv e a b => stOf s (execSeginv e a b s)
  | .cust e n a b => stOf s (execCust e n a b s)
  | .movq e a imm => stOf s (execMovq e a imm s)
  | .addq e a imm => stOf s (execAddq e a imm s)
  | .cmpq e a imm => stOf s (execCmpq e a imm s)
  | .shlq e a imm => stOf s (execShlq e a imm s)
  | .shrq e a imm => stOf s (execShrq e a imm s)
  | .sarq e a imm => stOf s (execSarq e a imm s)
  | .rolq e a imm => stOf s (execRolq e a imm s)
  | .extp e a imm => stOf s (execExtp e a imm s)
  | .rpt e a imm nxt => stOf s (execRpt e a imm nxt s)
  | .rptu e a imm nxt => stOf s (execRptu e a imm nxt s)
  | .mfr e a imm => stOf s (execMfr e a imm s)
  | .mtr e a imm => stOf s (execMtr e a imm s)
  | .svc e a imm => stOf s (execSvc e a imm s)
  | .mvc e a imm => stOf s (execMvc e a imm s)
  | .tstb e a imm => stOf s (execTstb e a imm s)
  | .ld e a b seg disp => stOf s (execLd e a b seg disp s)
  | .st e a b seg disp => stOf s (execSt e a b seg disp s)
  | .ldd e a b seg disp => stOf s (execLdd e a b seg disp s)
  | .std e a b seg disp => stOf s (execStd e a b seg disp s)
  | .ldr e a b seg disp => stOf s (execLdr e a b seg disp s)
  | .ldrD e a b seg disp => stOf s (execLdrD e a b seg disp s)
  | .stc e a b seg disp => stOf s (execStc e a b seg disp s)
  | .stcD e a b seg disp => stOf s (execStcD e a b seg disp s)
  | .ldi e a u imm => stOf s (execLdi e a u imm s)
  | .lui e a u imm => stOf s (execLui e a u imm s)
  | .addi e a b u imm => stOf s (execAddi e a b u imm s)
  | .addiS e a b u imm => stOf s (execAddiS e a b u imm s)
  | .andi e a b u imm => stOf s (execAndi e a b u imm s)
  | .ori e a b u imm => stOf s (execOri e a b u imm s)
  | .xori e a b u imm => stOf s (execXori e a b u imm s)
  | .cmpi e a u imm => stOf s (execCmpi e a u imm s)
  | .b e cond u disp => stOf s (execB e cond u disp s)
  | .call e a u disp => stOf s (execCall e a u disp s)
  | .dbnz e a u disp => stOf s (execDbnz e a u disp s)
  | .unassignedOpcode e long => stOf s (execUnassignedOpcode e long s)
  | .exceptionEntry e => stOf s (execExceptionEntry e s)
  | _ => s

/-- Ends the stall of engine e and carries out what it held. What was delivered for that instruction alone goes with it. -/
def resume (e : Nat) (s : State) : State :=
  match (s.e e).run.stall with
  | some x =>
    let s := engStep x.instr (s.modE e fun g => g.modRun fun r => { r with stall := none, resuming := some x })
    let s := s.modE e fun g => g.modRun fun r => { r with resuming := none }
    if (s.e e).run.stall.isSome then s else closeUnc e (dropAnswers e s)
  | none => s

/-- A stall of `n` measured cycles ends (R180): they are charged under counter `ctr`, at most its bound of `ns` nanoseconds, where
it has one (R210). A sealed tenant's stall lasts until that bound, unless it is one of 64 µs (R384). -/
def stallEnds (e ctr ns n : Nat) (s : State) : State :=
  let b := boundCyc s ns
  let n := if ns = 0 then n else min n b
  let s := measured e ctr n s
  match (s.e e).run.stall with
  | some x =>
    if padding (s.e e) && decide (ns < 64000 ∧ n < b) then
      s.modE e fun g => g.modRun fun r => { r with stall := some { x with why := .padded (b - n) ctr x.why } }
    else resume e s
  | none => s

/-- A stall ends by an event that reports no cycles: their number is free within the bound (log entry 9). -/
def stallEndsFree (e ctr ns : Nat) (s : State) : State :=
  let r := freeUpTo (boundCyc s ns) s
  stallEnds e ctr ns r.1 r.2

/-- PADDED_STALL_END (R384). -/
def execPaddedStallEnd (e : Nat) (s : State) : Host.Outcome State Fault Refusal :=
  onEngine e true
    (match (s.e e).run.stall with
     | some x => match x.why with
       | .padded n ctr was =>
         resume e ((measured e ctr n s).modE e fun g => g.modRun fun r => { r with stall := some { x with why := was } })
       | _ => s
     | none => s)

/-- MICROWORD_REWRITE (R263): Welana rewrites the failing word, and the instruction is carried out; `stall` is the
measured time. A word that has failed twice in the instruction retires the engine instead. -/
def execMicrowordRewrite (e stall : Nat) (s : State) : Host.Outcome State Fault Refusal :=
  onEngine e true
    (match (s.e e).run.stall with
     | some x => match x.why with
       | .micro addr =>
         if s.wel.failed.any fun f => f.e = e then s else resume e (measured e cPSMC stall (microWrite e addr s))
       | _ => s
     | none => s)

/-- STC_DECISION (R340, R654): the STC holds its line in E or M, or its watches are accepted, and decides; `stall` is the
measured time, counted as a load's wait for its line is, in PSLD (DESIGN CHOICE, log entry 71). Where the line has been taken from
it in between and no request for it is outstanding, it asks for the line anew. -/
def execStcDecision (e stall : Nat) (s : State) : Host.Outcome State Fault Refusal :=
  onEngine e true
    (match (s.e e).run.stall with
     | some x => match x.why with
       | .stcLine l =>
         let held := match (s.e e).l1Find l with
           | some c => c.st = .e || c.st = .m
           | none => false
         if held || (s.e e).mem.ctlAns.isSome then stallEnds e cPSLD 800 stall s
         else if !reqOut s (.engine e) l then resume e s
         else s
       | .watches =>
         if (match (s.e e).mem.resv with
             | some r => r.awaited.isEmpty
             | none => true) then stallEnds e cPSLD 150 stall s else s
       | _ => s
     | none => s)

end Sys2Proof.Machine
end

