-- ==== Sys2Proof/Machine/Dram.lean ====
section
/-! DEFINITION. The memory controllers: the check code (R41 to R45), line slots (R55, R56), check caches (R50), retired
channels and poison tables (R53, R520, R648), mirrored lines (R357, R359), scrubbing (R52) and rebuild (R528). -/

namespace Sys2Proof.Machine

/-! ### GF(2^9) (R41) -/

/-- A field element is the natural number of its symbol, whose bit 8 is the coefficient of 1. Times the root. -/
def gfX (v : Nat) : Nat := if 256 ≤ v then Nat.xor (2 * v - 512) 17 else 2 * v

/-- The product, by the bits of the second factor from the most significant. -/
def gfMul (a b : Nat) : Nat :=
  (List.range 9).foldl (fun r k => if b / 2 ^ (8 - k) % 2 = 1 then Nat.xor (gfX r) a else gfX r) 0

/-- The root to the power n. -/
def gfPow : Nat → Nat
  | 0 => 1
  | n + 1 => gfX (gfPow n)

/-- v to the power 2^k by repeated squaring. -/
def gfSq (v : Nat) : Nat → Nat
  | 0 => v
  | k + 1 => gfSq (gfMul v v) k

/-- The inverse of a nonzero element: its power 510 = 2 + 4 + ... + 256. -/
def gfInv (v : Nat) : Nat := (List.range 8).foldl (fun r k => gfMul r (gfSq v (k + 1))) 1

/-! ### The code (R42 to R45) -/

/-- The coefficients of g below its leading one, of x^3 first. -/
def gPoly : List Nat :=
  let mulLin := fun (p : List Nat) (r : Nat) =>
    List.zipWith Nat.xor (p ++ [0]) (0 :: p.map fun c => gfMul c r)
  ((List.range 4).foldl (fun p k => mulLin p (gfPow k)) [1]).drop 1

/-- One step of the division: the remainder (coefficient of x^3 first) times x, with a new symbol. -/
def rsStep (r : List Nat) (d : Nat) : List Nat :=
  let f := Nat.xor (r.headD 0) d
  List.zipWith (fun c g => Nat.xor c (gfMul f g)) (r.drop 1 ++ [0]) gPoly

/-- The 32 data symbols of a line, R42's order. -/
def lineSyms (ws : List Word) : List Nat := ws.flatMap fun w => (List.range 4).map (lane w)

/-- A word of four symbols. -/
def symWord (p : List Nat) : Word := mkW (p.foldl (fun a v => a * 512 + v) 0)

/-- The check word of a line (R42, R43). -/
def rsCheck (ws : List Word) : Word := symWord ((lineSyms ws).foldl rsStep [0, 0, 0, 0])

/-- The poison check word (R44): the remainder of x^255, which is x^251 times x^4. -/
def poisonCheck : Word := symWord ((List.replicate 251 0).foldl rsStep (rsStep [0, 0, 0, 0] 1))

/-- A poisoned line's data. -/
def zeroLine : List Word := List.replicate 8 0

/-- The outcomes of R45. -/
inductive RsRes where
  | good | fixed (ws : List Word) (chk : Word) | poison | bad
deriving DecidableEq, Repr

/-- The value of the received codeword at a power of the root (Horner). -/
def synd (syms : List Nat) (k : Nat) : Nat := syms.foldl (fun a s => Nat.xor (gfMul a (gfPow k)) s) 0

/-- The positions a decoder reaches: 0 to 35, and 255. -/
def rsPos : List Nat := List.range 36 ++ [255]

/-- The codeword with the errors added at positions 0 to 35; position 35 is the first symbol. -/
def rsApply (syms : List Nat) (errs : List (Nat × Nat)) : List Nat :=
  errs.foldl (fun s pe => if pe.1 < 36 then s.set (35 - pe.1) (Nat.xor (s.getD (35 - pe.1) 0) pe.2) else s) syms

/-- Words from 36 symbols: eight data words and the check word. -/
def symsLine (syms : List Nat) : List Word × Word :=
  ((List.range 8).map fun k => symWord ((syms.drop (4 * k)).take 4), symWord (syms.drop 32))

/-- What errors at the given positions and values mean. -/
def rsOutcome (syms : List Nat) (errs : List (Nat × Nat)) : RsRes :=
  if errs.any fun p => p.2 = 0 then .bad
  else if errs.all fun p => p.1 < 36 then
    let l := symsLine (rsApply syms errs)
    .fixed l.1 l.2
  else if errs.any fun p => p.1 = 255 && p.2 = 1 then .poison else .bad

/-- The decoder of R45: no error, one error, or two errors at positions it reaches. -/
def rsDecode (ws : List Word) (chk : Word) : RsRes :=
  let syms := lineSyms ws ++ (List.range 4).map (lane chk)
  let s0 := synd syms 0
  let s1 := synd syms 1
  let s2 := synd syms 2
  let s3 := synd syms 3
  if s0 = 0 ∧ s1 = 0 ∧ s2 = 0 ∧ s3 = 0 then .good
  else
    let m := gfMul
    let det := Nat.xor (m s1 s1) (m s0 s2)
    if det = 0 then
      -- one error: s1 = s0 X, s2 = s1 X, s3 = s2 X
      if s0 = 0 then .bad
      else match rsPos.find? fun p => m s0 (gfPow p) = s1 && m s1 (gfPow p) = s2 && m s2 (gfPow p) = s3 with
        | some p => rsOutcome syms [(p, s0)]
        | none => .bad
    else
      let iv := gfInv det
      let a := m (Nat.xor (m s1 s2) (m s0 s3)) iv
      let b := m (Nat.xor (m s2 s2) (m s1 s3)) iv
      let pairs := rsPos.flatMap fun p => (rsPos.filter (p < ·)).map fun q => (p, q)
      match pairs.find? fun pq => Nat.xor (gfPow pq.1) (gfPow pq.2) = a && m (gfPow pq.1) (gfPow pq.2) = b with
      | some (p, q) =>
        let x := gfPow p
        let y := gfPow q
        let e1 := m (Nat.xor (m s0 y) s1) (gfInv (Nat.xor x y))
        rsOutcome syms [(p, e1), (q, Nat.xor s0 e1)]
      | none => .bad

/-- What a home slice finds in words that it stores with their check word: the words as decoded, and whether they are poisoned
(R322, R45). -/
def rsSeen (ws : List Word) (chk : Word) (poison : Bool) : List Word × Bool :=
  if poison then (ws, true)
  else if chk = rsCheck ws then (ws, false)
  else match rsDecode ws chk with
    | .good => (ws, false)
    | .fixed ws _ => (ws, false)
    | _ => (ws, true)

/-! ### Slots and channels (R55, R56) -/

def dataSub (l : Nat) : Nat := (9 * (l / 8) + l % 8) % 8
def checkSub (l : Nat) : Nat := (9 * (l / 8) + 8) % 8
def chanOf (sub : Nat) : Nat := sub / 2

def State.modMem (s : State) (f : Mem → Mem) : State := { s with mem := f s.mem }

/-- The channel of the data slot, or of the check slot, of a line answers no request (R520); a channel under rebuild is
not back in service until the rebuild ends. -/
def dataDead (s : State) (l : Nat) : Bool := s.mem.retired.contains (chanOf (dataSub l))
def checkDead (s : State) (l : Nat) : Bool := s.mem.retired.contains (chanOf (checkSub l))

/-- A saturating count of MCSC of a sub-channel (R359). -/
def mcCount (sub a b : Nat) (s : State) : State := s.csat (rMCSC (sub / 2) (sub % 2)) a b

/-! ### Mirror (R357) -/

def mirSize (s : State) : Nat := s.cf rMIRBND 18 35
def lineInPrimary (s : State) (l : Nat) : Bool := inPrimary s (8 * l)
def shadowOf (s : State) (l : Nat) : Nat := l + 8 * (1024 * mirSize s + 2)
def lineInShadow (s : State) (l : Nat) : Bool :=
  decide (8 * (1024 * mirSize s + 2) ≤ l) && lineInPrimary s (l - 8 * (1024 * mirSize s + 2))

/-! ### Words in DRAM -/

def dramLine (s : State) (l : Nat) : List Word := (List.range 8).map fun k => tget 0 s.mem.dram (8 * l + k)

def setDramLine (l : Nat) (ws : List Word) (s : State) : State :=
  s.modMem fun m =>
    { m with dram := (List.zipWith Prod.mk (List.range 8) ws).foldl (fun t p => tset 0 t (8 * l + p.1) p.2) m.dram,
             written := if m.purged.contains (chanOf (dataSub l), chanOf (checkSub l)) && !m.written.contains l then l :: m.written
               else m.written }

/-- Every unmirrored data slot of a channel that was rebuilt is poisoned until it is written, or until a rebuild of the channel of
its check slot computes the check word anew (R528). -/
def isPurged (s : State) (l : Nat) : Bool :=
  s.mem.purged.contains (chanOf (dataSub l), chanOf (checkSub l)) && !s.mem.written.contains l && !lineInPrimary s l && !lineInShadow s l

/-- The check word of a line in DRAM. -/
def chkDram (s : State) (l : Nat) : Word := if isPurged s l then poisonCheck else tget 0 s.mem.chk l

/-! ### Check caches (R50) -/

def State.ckc (s : State) (n : Nat) : List CkLine := tget [] s.mem.ckc n

/-- Writes a check line back to DRAM. -/
def ckWriteBack (c : CkLine) (s : State) : State :=
  s.modMem fun m =>
    { m with chk := (List.zipWith Prod.mk (List.range 8) c.cs).foldl (fun t p => tset 0 t (8 * c.group + p.1) p.2) m.chk }

/-- The set, of 64, of a group's check line: a controller owns the groups of its two sub-channels, and consecutive ones of them
take consecutive sets (DESIGN CHOICE, log entry 28). -/
def ckSet (g : Nat) : Nat := (g / 8 * 2 + g % 2) % 64

/-- Brings the check line of a group into the cache of the controller that owns it, as the most recently used; the least
recently used of the eight of its set goes, and is written back when dirty. -/
def ckFetch (g : Nat) (s : State) : State :=
  let n := chanOf (g % 8)
  let q := s.ckc n
  match q.find? fun c => c.group = g with
  | some c => s.modMem fun m => { m with ckc := tset [] m.ckc n (c :: q.filter fun d => d.group ≠ g) }
  | none =>
    let c : CkLine := { group := g, cs := (List.range 8).map fun i => chkDram s (8 * g + i), dirty := false }
    let q' := c :: q
    match ((q'.filter fun d => ckSet d.group = ckSet g).drop 8).head? with
    | some v =>
      let s := if v.dirty then ckWriteBack v s else s
      s.modMem fun m => { m with ckc := tset [] m.ckc n (q'.filter fun d => d.group ≠ v.group) }
    | none => s.modMem fun m => { m with ckc := tset [] m.ckc n q' }

/-- The check word of a line as its controller finds it. -/
def ckRead (l : Nat) (s : State) : Word × State :=
  let s := ckFetch (l / 8) s
  match (s.ckc (chanOf (l / 8 % 8))).find? fun c => c.group = l / 8 with
  | some c => (c.cs.getD (l % 8) 0, s)
  | none => (chkDram s l, s)

/-- Writes the check word of a line alone (R49). -/
def ckWrite (l : Nat) (w : Word) (s : State) : State :=
  let s := ckFetch (l / 8) s
  let n := chanOf (l / 8 % 8)
  s.modMem fun m =>
    { m with ckc := tset [] m.ckc n ((tget [] m.ckc n).map fun c =>
        if c.group = l / 8 then { c with cs := c.cs.set (l % 8) w, dirty := true } else c) }

/-! ### One copy of a line (R45, R53, R648) -/

def ptabHas (s : State) (l : Nat) : Bool := (tget [] s.mem.ptab (chanOf (dataSub l))).contains l

/-- Takes a line out of its poison table, or puts it in where it has room for it. -/
def ptabDel (l : Nat) (s : State) : State :=
  let n := chanOf (dataSub l)
  s.modMem fun m => { m with ptab := tset [] m.ptab n ((tget [] m.ptab n).filter (· ≠ l)) }

def ptabAdd (l : Nat) (s : State) : State :=
  let n := chanOf (dataSub l)
  let q := tget [] s.mem.ptab n
  if q.contains l || decide (4096 ≤ q.length) then s else s.modMem fun m => { m with ptab := tset [] m.ptab n (q ++ [l]) }

/-- Writes one copy of a line (R48, R49, R53). -/
def copyWrite (l : Nat) (ws : List Word) (s : State) : State :=
  if dataDead s l then s
  else
    let s := setDramLine l ws s
    if checkDead s l then ptabDel l s else ckWrite l (rsCheck ws) s

/-- Writes one copy poisoned (R44, R47, R648). -/
def copyPoison (l : Nat) (s : State) : State :=
  if dataDead s l then s
  else
    let s := setDramLine l zeroLine s
    if checkDead s l then ptabAdd l s else ckWrite l poisonCheck s

/-- Reads one copy: the words, whether they are poisoned, and the controller's action (R45, R53). -/
def copyRead (l : Nat) (s : State) : (List Word × Bool) × State :=
  let ws := dramLine s l
  if dataDead s l then ((zeroLine, true), s)
  else if checkDead s l then
    if ptabHas s l then ((zeroLine, true), s) else ((ws, false), mcCount (dataSub l) 18 26 s)
  else
    let r := ckRead l s
    match rsDecode ws r.1 with
    | .good => ((ws, false), r.2)
    | .fixed ws c => ((ws, false), mcCount (dataSub l) 0 8 (ckWrite l c (setDramLine l ws r.2)))
    | .poison => ((zeroLine, true), r.2)
    | .bad => ((zeroLine, true), mcCount (dataSub l) 9 17 (copyPoison l r.2))

/-! ### Lines as a home slice reads and writes them (R359) -/

/-- Reads a line: words, poison, and where it came from (2 DRAM, 3 the shadow copy). -/
def memRead (l : Nat) (s : State) : (List Word × Bool × Nat) × State :=
  let r := copyRead l s
  if !r.1.2 then ((r.1.1, false, 2), r.2)
  else if lineInPrimary s l then
    let q := copyRead (shadowOf s l) (mcCount (dataSub l) 27 35 r.2)
    if q.1.2 then ((zeroLine, true, 3), q.2) else ((q.1.1, false, 3), copyWrite l q.1.1 q.2)
  else ((zeroLine, true, 2), r.2)

/-- Writes a line, both copies when it is mirrored. -/
def memWrite (l : Nat) (ws : List Word) (s : State) : State :=
  let s' := copyWrite l ws s
  if lineInPrimary s l then copyWrite (shadowOf s l) ws s' else s'

/-- Writes one copy of a line with the check word that the home slice holds for it. -/
def copyRaw (l : Nat) (ws : List Word) (c : Word) (s : State) : State :=
  if dataDead s l then s
  else if checkDead s l then copyPoison l s
  else ckWrite l c (setDramLine l ws s)

/-- Writes a line that the home slice has found uncorrectable, as it holds it: the controller finds it uncorrectable at its next
read, and writes the poison check word then (R45, R47). -/
def memRaw (l : Nat) (ws : List Word) (c : Word) (s : State) : State :=
  let s' := copyRaw l ws c s
  if lineInPrimary s l then copyRaw (shadowOf s l) ws c s' else s'

/-- Writes a line poisoned, both copies when it is mirrored. -/
def memPoison (l : Nat) (s : State) : State :=
  let s' := copyPoison l s
  if lineInPrimary s l then copyPoison (shadowOf s l) s' else s'

/-! ### Scrubbing (R52) -/

/-- The first unused slot: 9 G. -/
def slotsUsed (s : State) : Nat := 9 * (s.cf rMEMCFG 5 35 / 8)

/-- MEMORY_SCRUB (R52): a data slot is read and acted on as in R45; a check line has no code of its own (R51). -/
def execMemoryScrub (slot : Nat) (s : State) : Host.Outcome State Fault Refusal :=
  .next
    (if slotsUsed s ≤ slot || slot % 9 = 8 then s
     else
       let l := 8 * (slot / 9) + slot % 9
       if dataDead s l || checkDead s l then s else (copyRead l s).2)

/-! ### Channels (R513, R520, R528) -/

/-- A detected failure whose recovery is due. -/
def failUnit (kind unit cause : Nat) (s : State) : State :=
  let s := fltRec kind unit cause s
  { s with wel := { s.wel with failedU := s.wel.failedU ++ [(kind, unit, cause)] } }

/-- A failure of unit (kind, unit) has been detected and awaits its recovery. -/
def unitFailed (s : State) (kind unit : Nat) : Bool := s.wel.failedU.any fun f => f.1 = kind && f.2.1 = unit

def unitTaken (kind unit : Nat) (s : State) : State :=
  { s with wel := { s.wel with failedU := s.wel.failedU.filter fun f => !(f.1 = kind && f.2.1 = unit) } }

/-- BURST_UNANSWERED (R513): cause 07. -/
def execBurstUnanswered (ch : Nat) (s : State) : Host.Outcome State Fault Refusal :=
  if 4 ≤ ch then .fault .noSuchUnit
  else .next (if s.mem.retired.contains ch || unitFailed s 2 ch then s else failUnit 2 ch 7 (bringTo (s.net.devTime + 500 * 64) s))

/-- INTERFACE_LOST (R513): cause 10. -/
def execInterfaceLost (ch : Nat) (s : State) : Host.Outcome State Fault Refusal :=
  if 4 ≤ ch then .fault .noSuchUnit
  else .next (if s.mem.retired.contains ch || unitFailed s 2 ch then s else failUnit 2 ch 8 s)

/-- CHANNEL_ERROR_RATE (R513): Welana's watch over one second; UEC of a sub-channel has risen by 16: cause 11. -/
def execChannelErrorRate (sub : Nat) (s : State) : Host.Outcome State Fault Refusal :=
  if 8 ≤ sub then .fault .noSuchUnit
  else
    let n := s.cf (rMCSC (sub / 2) (sub % 2)) 9 17
    let was := tget 0 s.mem.uecMark sub
    -- a count below the mark has been cleared since by a read
    let hit := decide ((if n < was then 0 else was) + 16 ≤ n) && !s.mem.retired.contains (chanOf sub)
      && !unitFailed s 2 (chanOf sub)
    let s := s.modMem fun m => { m with uecMark := tset 0 m.uecMark sub n }
    .next (if hit then failUnit 2 (chanOf sub) 9 s else s)

/-- A channel leaves service: its cached check lines and outstanding rebuild are gone. -/
def retireChannel (ch : Nat) (s : State) : State :=
  unitTaken 2 ch (s.modMem fun m =>
    { m with retired := if m.retired.contains ch then m.retired else m.retired ++ [ch],
             restoring := m.restoring.filter (· ≠ ch), ckc := tset [] m.ckc ch [] })

/-- The lines that DRAM lists words or check words of, or a poison table holds. -/
def listedLines (s : State) : List Nat :=
  (s.mem.dram.map (fun (p : Nat × Word) => p.1 / 8) ++ s.mem.chk.map (fun (p : Nat × Word) => p.1)
    ++ s.mem.ckc.flatMap (fun (p : Nat × List CkLine) =>
      p.2.flatMap fun (c : CkLine) => (List.range 8).map fun i => 8 * c.group + i)
    ++ s.mem.ptab.flatMap fun (p : Nat × List Nat) => p.2).eraseDups

/-- The rebuild of R528: mirrored copies from the surviving copies, every other data slot of the channel poisoned, check
words of its check slots computed anew; then the channel is in service. -/
def rebuildChannel (ch : Nat) (s : State) : State :=
  let ls := (listedLines s ++ s.home.lines.map fun (p : Nat × Option HLine) => p.1).eraseDups
  let mine := ls.filter fun l => chanOf (dataSub l) = ch
  let lost := mine.filter fun l => !(lineInPrimary s l || lineInShadow s l)
  -- the words a copy on the channel receives, read while the channel is still out of service
  let back := mine.filterMap fun l =>
    if lineInPrimary s l then some (l, (copyRead (shadowOf s l) s).1)
    else if lineInShadow s l then some (l, (copyRead (l - 8 * (1024 * mirSize s + 2)) s).1) else none
  let extra := (ls.filter fun l => lineInPrimary s l && chanOf (dataSub (shadowOf s l)) = ch).map
    fun l => (shadowOf s l, (copyRead l s).1)
  let extra2 := (ls.filter fun l => lineInShadow s l && chanOf (dataSub (l - 8 * (1024 * mirSize s + 2))) = ch).map
    fun l => (l - 8 * (1024 * mirSize s + 2), (copyRead l s).1)
  let chk := ls.filter fun l => chanOf (checkSub l) = ch && chanOf (dataSub l) ≠ ch
  let homePois := fun l => match tget none s.home.lines l with
    | some x => x.poison
    | none => false
  let chkPois := chk.filter fun l => ptabHas s l || homePois l
  let s := s.modMem fun m =>
    { m with retired := m.retired.filter (· ≠ ch), restoring := m.restoring.filter (· ≠ ch),
             purged := (m.purged.filter fun p => p.1 ≠ ch && p.2 ≠ ch) ++ (List.range 4).map fun c => (ch, c),
             written := m.written.filter fun l => chanOf (dataSub l) ≠ ch }
  let s := lost.foldl (fun s l => copyPoison l s) s
  let s := (back ++ extra ++ extra2).foldl (fun (s : State) (p : Nat × (List Word × Bool)) =>
    if p.2.2 then copyPoison p.1 s else copyWrite p.1 p.2.1 s) s
  let s := chk.foldl (fun s l =>
    if chkPois.contains l then copyPoison l s else ckWrite l (rsCheck (dramLine s l)) s) s
  s.modMem fun m =>
    { m with ptab := (m.ptab.map fun p => (p.1, p.2.filter fun l => chanOf (checkSub l) ≠ ch)).filter fun p => !p.2.isEmpty }

end Sys2Proof.Machine
end

