-- ==== Sys2Proof/Machine/Crypto.lean ====
section
/-! DEFINITION. The algorithms that the spec names by their standards: SHA-384 and HMAC-SHA-384, and AES-256-GCM (R444, R448,
R504, R509, R552, R555 to R557), and its key wrap. PRESUMED from FIPS 180-4, FIPS 198-1, FIPS 197, SP 800-38D and RFC 3394: log
entry 14. -/

namespace Sys2Proof.Machine

/-! ### SHA-384 -/

abbrev W64 := BitVec 64

/-- The whole part of the k-th root of n, found from bit 67 down. -/
def wholeRoot (k n : Nat) : Nat :=
  (List.range 68).foldl (fun r i => if (r + 2 ^ (67 - i)) ^ k ≤ n then r + 2 ^ (67 - i) else r) 0

/-- The first 64 bits of the fractional part of the k-th root of p: what the standard takes its constants from. -/
def rootFrac (k p : Nat) : W64 := BitVec.ofNat 64 (wholeRoot k (p * 2 ^ (64 * k)))

/-- The primes below 410, of which there are eighty. -/
def firstPrimes : List Nat := (List.range 410).filter fun n => 2 ≤ n && ((List.range 21).drop 2).all fun d => n ≤ d || n % d ≠ 0

/-- The round constants, from the cube roots of the first eighty primes. -/
def shaKs : List W64 := firstPrimes.map (rootFrac 3)

/-- The initial hash value of SHA-384, from the square roots of the ninth to the sixteenth prime. -/
def shaIv : List W64 := ((firstPrimes.drop 8).take 8).map (rootFrac 2)

def ror64 (x : W64) (n : Nat) : W64 := x.rotateRight n

/-- The message schedule: sixteen words, most recent first, extended by n words. -/
def shaSched : Nat → List W64 → List W64
  | 0, w => w
  | n + 1, w =>
    let a := w.getD 1 0
    let b := w.getD 14 0
    let s1 := ror64 a 19 ^^^ ror64 a 61 ^^^ (a >>> 6)
    let s0 := ror64 b 1 ^^^ ror64 b 8 ^^^ (b >>> 7)
    shaSched n ((s1 + w.getD 6 0 + s0 + w.getD 15 0) :: w)

structure ShaV where
  a : W64
  b : W64
  c : W64
  d : W64
  e : W64
  f : W64
  g : W64
  h : W64
deriving DecidableEq, Repr

def shaRound (v : ShaV) (kw : W64) : ShaV :=
  let t1 := v.h + (ror64 v.e 14 ^^^ ror64 v.e 18 ^^^ ror64 v.e 41) + ((v.e &&& v.f) ^^^ (~~~ v.e &&& v.g)) + kw
  let t2 := (ror64 v.a 28 ^^^ ror64 v.a 34 ^^^ ror64 v.a 39)
    + ((v.a &&& v.b) ^^^ (v.a &&& v.c) ^^^ (v.b &&& v.c))
  { a := t1 + t2, b := v.a, c := v.b, d := v.c, e := v.d + t1, f := v.e, g := v.f, h := v.g }

def shaToV (h : List W64) : ShaV :=
  { a := h.getD 0 0, b := h.getD 1 0, c := h.getD 2 0, d := h.getD 3 0, e := h.getD 4 0, f := h.getD 5 0, g := h.getD 6 0,
    h := h.getD 7 0 }

/-- One block of 128 octets. -/
def shaBlock (h : List W64) (blk : List Octet) : List W64 :=
  let ws := (List.range 16).map fun i => BitVec.ofNat 64 (beNat ((blk.drop (8 * i)).take 8))
  let sched := (shaSched 64 ws.reverse).reverse
  let v := (List.zipWith (· + ·) shaKs sched).foldl shaRound (shaToV h)
  List.zipWith (· + ·) h [v.a, v.b, v.c, v.d, v.e, v.f, v.g, v.h]

def shaBlocks : Nat → List W64 → List Octet → List W64
  | 0, h, _ => h
  | n + 1, h, m => shaBlocks n (shaBlock h (m.take 128)) (m.drop 128)

/-- SHA-384: 48 octets. -/
def sha384 (m : List Octet) : List Octet :=
  let z := (111 + (128 - m.length % 128)) % 128
  let p := m ++ [0x80] ++ List.replicate z 0 ++ beOctets 16 (8 * m.length)
  ((shaBlocks (p.length / 128) shaIv p).take 6).flatMap fun w => beOctets 8 w.toNat

/-- HMAC-SHA-384. -/
def hmac384 (key m : List Octet) : List Octet :=
  let k0 := if key.length ≤ 128 then key else sha384 key
  let k := k0 ++ List.replicate (128 - k0.length) 0
  sha384 (k.map (· ^^^ 0x5c) ++ sha384 (k.map (· ^^^ 0x36) ++ m))

/-! ### AES-256 -/

/-- Times x in the field of AES. -/
def aesX (a : Octet) : Octet := (a <<< 1) ^^^ (if a.msb then 0x1b else 0)

def aesMul (a b : Octet) : Octet :=
  (List.range 8).foldl (fun r k => aesX r ^^^ (if b.getMsbD k then a else 0)) 0

/-- The inverse, 0 for 0: the power 254. -/
def aesInv (a : Octet) : Octet :=
  let a2 := aesMul a a
  let a4 := aesMul a2 a2
  let a8 := aesMul a4 a4
  let a16 := aesMul a8 a8
  let a32 := aesMul a16 a16
  let a64 := aesMul a32 a32
  let a128 := aesMul a64 a64
  [a4, a8, a16, a32, a64, a128].foldl aesMul a2

def aesS (a : Octet) : Octet :=
  let b := aesInv a
  b ^^^ b.rotateLeft 1 ^^^ b.rotateLeft 2 ^^^ b.rotateLeft 3 ^^^ b.rotateLeft 4 ^^^ 0x63

def xorO (a b : List Octet) : List Octet := List.zipWith (· ^^^ ·) a b

/-- The key schedule: words of four octets, the most recent first, extended by n words; i is the index of the next. -/
def aesExpand : Nat → Nat → Octet → List (List Octet) → List (List Octet)
  | 0, _, _, ws => ws
  | n + 1, i, rc, ws =>
    let p := ws.headD []
    let t := if i % 8 = 0 then
        (match p with
          | [a, b, c, d] => [aesS b ^^^ rc, aesS c, aesS d, aesS a]
          | _ => p)
      else if i % 8 = 4 then p.map aesS else p
    aesExpand n (i + 1) (if i % 8 = 0 then aesX rc else rc) (xorO (ws.getD 7 []) t :: ws)

/-- The fifteen round keys of a key of 32 octets. -/
def aesKeys (key : List Octet) : List (List Octet) :=
  let w0 := (List.range 8).map fun i => (key.drop (4 * i)).take 4
  let ws := (aesExpand 52 8 1 w0.reverse).reverse
  (List.range 15).map fun r => ((ws.drop (4 * r)).take 4).flatten

/-- ShiftRows on sixteen octets by columns. -/
def aesShift (st : List Octet) : List Octet :=
  (List.range 16).map fun i => st.getD ((i + 4 * (i % 4)) % 16) 0

def aesMix (st : List Octet) : List Octet :=
  (List.range 16).map fun i =>
    let c := 4 * (i / 4)
    let g := fun k => st.getD (c + (i + k) % 4) 0
    aesX (g 0) ^^^ (aesX (g 1) ^^^ g 1) ^^^ g 2 ^^^ g 3

/-- One block of sixteen octets under the round keys. -/
def aesBlock (ks : List (List Octet)) (b : List Octet) : List Octet :=
  let st := ((ks.drop 1).take 13).foldl (fun st k => xorO (aesMix (aesShift (st.map aesS))) k) (xorO b (ks.headD []))
  xorO (aesShift (st.map aesS)) (ks.getD 14 [])

/-! ### The inverse cipher and the AES key wrap of RFC 3394 (R509, R581) -/

/-- The inverse of `aesS`. -/
def aesSInv (y : Octet) : Octet := aesInv (y.rotateLeft 1 ^^^ y.rotateLeft 3 ^^^ y.rotateLeft 6 ^^^ 0x05)

def aesShiftInv (st : List Octet) : List Octet :=
  (List.range 16).map fun i => st.getD ((i + 12 * (i % 4)) % 16) 0

def aesMixInv (st : List Octet) : List Octet :=
  (List.range 16).map fun i =>
    let c := 4 * (i / 4)
    let g := fun k => st.getD (c + (i + k) % 4) 0
    aesMul (g 0) 0x0e ^^^ aesMul (g 1) 0x0b ^^^ aesMul (g 2) 0x0d ^^^ aesMul (g 3) 0x09

/-- The block whose encryption is b. -/
def aesBlockInv (ks : List (List Octet)) (b : List Octet) : List Octet :=
  let st := ((ks.drop 1).take 13).reverse.foldl (fun st k => aesMixInv (xorO ((aesShiftInv st).map aesSInv) k))
    (xorO b (ks.getD 14 []))
  xorO ((aesShiftInv st).map aesSInv) (ks.headD [])

/-- The octets in blocks of eight. -/
def blocks8 (p : List Octet) : List (List Octet) := (List.range (p.length / 8)).map fun i => (p.drop (8 * i)).take 8

/-- The register of the wrap before its first step. -/
def wrapIv : List Octet := List.replicate 8 0xa6

/-- The wrap of n blocks of eight octets under a key of 32: eight octets more. -/
def aesWrap (key p : List Octet) : List Octet :=
  let ks := aesKeys key
  let rs := blocks8 p
  let n := rs.length
  let r := (List.range (6 * n)).foldl (fun (x : List Octet × List (List Octet)) t =>
    let b := aesBlock ks (x.1 ++ x.2.getD (t % n) [])
    (xorO (b.take 8) (beOctets 8 (t + 1)), x.2.set (t % n) (b.drop 8))) (wrapIv, rs)
  r.1 ++ r.2.flatten

/-- What a wrap holds; none where it was not made under this key. -/
def aesUnwrap (key c : List Octet) : Option (List Octet) :=
  let ks := aesKeys key
  let rs := blocks8 (c.drop 8)
  let n := rs.length
  let r := (List.range (6 * n)).foldl (fun (x : List Octet × List (List Octet)) u =>
    let t := 6 * n - 1 - u
    let b := aesBlockInv ks (xorO x.1 (beOctets 8 (t + 1)) ++ x.2.getD (t % n) [])
    (b.take 8, x.2.set (t % n) (b.drop 8))) (c.take 8, rs)
  if r.1 = wrapIv then some r.2.flatten else none

/-! ### GCM -/

/-- The product of GHASH. -/
def gcmMul (x y : BitVec 128) : BitVec 128 :=
  ((List.range 128).foldl (fun (p : BitVec 128 × BitVec 128) i =>
    (if x.getMsbD i then p.1 ^^^ p.2 else p.1,
     (p.2 >>> 1) ^^^ (if p.2.getLsbD 0 then 0xe1000000000000000000000000000000 else 0))) (0, y)).1

def ghash (h : BitVec 128) : Nat → BitVec 128 → List Octet → BitVec 128
  | 0, y, _ => y
  | n + 1, y, m =>
    let b := m.take 16
    let v := BitVec.ofNat 128 (beNat (b ++ List.replicate (16 - b.length) 0))
    ghash h n (gcmMul (y ^^^ v) h) (m.drop 16)

def blocks16 (n : Nat) : Nat := (n + 15) / 16

/-- The key stream of n blocks from a counter on. -/
def gcmCtr (ks : List (List Octet)) (nonce : List Octet) : Nat → Nat → List Octet
  | 0, _ => []
  | n + 1, c => aesBlock ks (nonce ++ beOctets 4 c) ++ gcmCtr ks nonce n (c + 1)

/-- The tag of a ciphertext. -/
def gcmTag (ks : List (List Octet)) (nonce aad ct : List Octet) : List Octet :=
  let h := BitVec.ofNat 128 (beNat (aesBlock ks (List.replicate 16 0)))
  let y := ghash h (blocks16 aad.length) 0 aad
  let y := ghash h (blocks16 ct.length) y ct
  let y := gcmMul (y ^^^ BitVec.ofNat 128 (8 * aad.length * 2 ^ 64 + 8 * ct.length)) h
  xorO (beOctets 16 y.toNat) (aesBlock ks (nonce ++ beOctets 4 1))

/-- AES-256-GCM: ciphertext and tag of sixteen octets, for a nonce of twelve. -/
def gcmSeal (key nonce aad pt : List Octet) : List Octet × List Octet :=
  let ks := aesKeys key
  let ct := xorO pt (gcmCtr ks nonce (blocks16 pt.length) 2)
  (ct, gcmTag ks nonce aad ct)

/-- Opening: the plaintext where the tag agrees. -/
def gcmOpen (key nonce aad ct tag : List Octet) : Option (List Octet) :=
  let ks := aesKeys key
  if gcmTag ks nonce aad ct = tag then some (xorO ct (gcmCtr ks nonce (blocks16 ct.length) 2)) else none

end Sys2Proof.Machine
end

