-- ==== Sys2Proof/Machine/Flash.lean ====
section
/-! DEFINITION. The fuses as they are read (R551), the derived keys (R552), the flash and its controller (R553 to R555), and the
octets of the configuration store (R508 to R510). -/

namespace Sys2Proof.Machine

/-! ### Bitwise majority (R551) -/

def majN (a b c : Nat) : Nat := Nat.lor (Nat.land a b) (Nat.lor (Nat.land a c) (Nat.land b c))

def majB (a b c : Bool) : Bool := (a && b) || (a && c) || (b && c)

/-- n octets by the majority of three strings. -/
def majO (n : Nat) (a b c : List Octet) : List Octet :=
  (List.range n).map fun i =>
    let x := a.getD i 0
    let y := b.getD i 0
    let z := c.getD i 0
    (x &&& y) ||| (x &&& z) ||| (y &&& z)

/-- SEALED, OPEN, DUSOFF and OKEY of the OTP as read. -/
def Otp.sealed (o : Otp) : Bool := majB o.c0.sealed o.c1.sealed o.c2.sealed
def Otp.openF (o : Otp) : Bool := majB o.c0.openF o.c1.openF o.c2.openF
def Otp.dusOff (o : Otp) : Bool := majB o.c0.dusOff o.c1.dusOff o.c2.dusOff
def Otp.okey (o : Otp) (n : Nat) : List Octet := majO 48 (tget [] o.c0.okeys n) (tget [] o.c1.okeys n) (tget [] o.c2.okeys n)

/-- A field is programmed in its three copies. -/
def Otp.program (f : OtpCopy → OtpCopy) (o : Otp) : Otp := { o with c0 := f o.c0, c1 := f o.c1, c2 := f o.c2 }

/-- VKEY, DUS, SERIAL and MACBASE as read. -/
def otpVkey (n : Nat) : List Octet := majO 48 (Config.vkey 0 n) (Config.vkey 1 n) (Config.vkey 2 n)
def otpDus : List Octet := majO 32 (Config.dus 0) (Config.dus 1) (Config.dus 2)
def otpSerial : Nat := majN (Config.serial 0) (Config.serial 1) (Config.serial 2) % 2 ^ 64
def otpMacBase : Nat := majN (Config.macBase 0) (Config.macBase 1) (Config.macBase 2) % 2 ^ 48

/-! ### The derived keys (R552) -/

def derivedKey (label : Octet) (s : State) : List Octet :=
  (hmac384 (if s.boot.otp.dusOff then zeros 32 else otpDus) [label]).take 32

/-- The device MAC key, and the store key. -/
def macKey (s : State) : List Octet := derivedKey 1 s
def storeKey (s : State) : List Octet := derivedKey 2 s

/-! ### The flash (R553 to R555) -/

def mib : Nat := 1048576

/-- The capacity of the flash. -/
def flashCap : Nat := [64, 128, 256].getD (Config.flashKind % 3) 64 * mib

/-- The areas of the flash. -/
inductive FlashArea where
  | vrec (copy : Nat) | prov | reserved | slot (i : Nat) | bank (b : Bool) | journal | owner
deriving DecidableEq, Repr

/-- Offset and size of an area in octets. -/
def FlashArea.place : FlashArea → Nat × Nat
  | .vrec i => (i * 65536, 65536)
  | .prov => (131072, 65536)
  | .reserved => (196608, 851968)
  | .slot i => ((1 + 8 * i) * mib, 8 * mib)
  | .bank b => ((17 + 8 * b.toNat) * mib, 8 * mib)
  | .journal => (33 * mib, 16 * mib)
  | .owner => (49 * mib, flashCap - 49 * mib)

/-- Who asks the xSPI controller for a write or an erase. -/
inductive FlashUser where
  | bootSequencer | management
deriving DecidableEq, Repr

/-- LCSTAT.VOK: Ethernet transmission and tenant start are ungated (R409, R569, R570). -/
def vok (s : State) : Bool := s.cb bootBlk 2

/-- The write rules of the xSPI controller. -/
def flashMay (u : FlashUser) (a : FlashArea) (s : State) : Bool :=
  u = .bootSequencer || (vok s && decide (mib ≤ a.place.1))

/-- A write or an erase of an area; a refused one changes nothing in the flash and is declared failed with cause 02. -/
def flashWrite (u : FlashUser) (a : FlashArea) (f : State → State) (s : State) : State :=
  if flashMay u a s then f s else { s with answer := .failed 2 }

/-! ### Records, deltas and banks in octets (R508 to R510) -/

/-- The octets of a record: RTYPE, the length of its data, its key fields, its data (log entry 88). -/
def StoreRec.octets (r : StoreRec) : List Octet :=
  beOctets 2 r.rtype ++ beOctets 4 (packedLen r.data.length) ++ packWords (r.key.map mkW) ++ packWords r.data

/-- How many octets records take. -/
def recsLen (rs : List StoreRec) : Nat := (rs.map fun r => 6 + packedLen r.key.length + packedLen r.data.length).sum

def recsOctets (rs : List StoreRec) : List Octet := rs.flatMap StoreRec.octets

/-- DCHK of a delta after the check `prev`. -/
def deltaChk (key prev : List Octet) (d : Delta) : List Octet :=
  (hmac384 key (prev ++ beOctets 8 d.jseq ++ beOctets 2 (recsLen d.recs) ++ recsOctets d.recs)).take 16

/-- The octets of a delta. -/
def Delta.size (d : Delta) : Nat := 26 + recsLen d.recs

/-- The longest length of a delta, the size of the delta area, and the most octets of a base. -/
def deltaMax : Nat := 4096
def deltaArea : Nat := 2 * mib
def baseMax : Nat := 6 * mib - 128

/-- The octets that the deltas of a bank take. -/
def Bank.used (b : Bank) : Nat := (b.deltas.map Delta.size).sum

/-- Each delta with the DCHK that follows from the one before. -/
def chainDeltas (key : List Octet) : List Octet → List Delta → List Delta
  | _, [] => []
  | prev, d :: r =>
    let c := deltaChk key prev d
    { d with dchk := c } :: chainDeltas key c r

/-- The deltas from the first on, up to the first whose DCHK does not verify or whose JSEQ does not rise (R512). -/
def goodDeltas (key : List Octet) : List Octet → Nat → List Delta → List Delta
  | _, _, [] => []
  | prev, n, d :: r => if n < d.jseq ∧ d.dchk = deltaChk key prev d then d :: goodDeltas key d.dchk d.jseq r else []

def bankMagic : List Octet := [0o103, 0o123, 0o124, 0o102]

/-- BCHK of a bank. -/
def bankChk (key : List Octet) (b : Bank) : List Octet :=
  hmac384 key (b.magic ++ beOctets 1 b.no ++ beOctets 1 b.fmt ++ zeros 2 ++ beOctets 8 b.seq ++ beOctets 8 b.jseq ++ beOctets 4 b.blen
    ++ recsOctets b.base)

/-- MAGIC, FMT and BCHK of a bank are good. -/
def Bank.good (key : List Octet) (b : Bank) : Bool :=
  decide (b.magic = bankMagic ∧ b.fmt = 1) && decide (b.bchk = bankChk key b)

/-- A bank that holds a base and no delta. -/
def newBank (key : List Octet) (isB : Bool) (seq jseq : Nat) (base : List StoreRec) : Bank :=
  let b : Bank := { magic := bankMagic, no := isB.toNat, fmt := 1, seq := seq, jseq := jseq, blen := recsLen base, bchk := [],
                    base := base, deltas := [] }
  { b with bchk := bankChk key b }

end Sys2Proof.Machine
end

