-- ==== Sys2Proof/Machine/Journal.lean ====
section
/-! DEFINITION. Welana's mailboxes, notices, journal and configuration store (R478, R482 to R486, R488, R489, R491, R504 to
R506, R508 to R510). -/

namespace Sys2Proof.Machine

def State.modWel (s : State) (f : Wel → Wel) : State := { s with wel := f s.wel }
def State.modNet (s : State) (f : Net → Net) : State := { s with net := f s.net }

/-! ### Places -/

/-- Windows of the mailboxes (R482, R483). -/
def rMbx (t : Nat) : Nat := mgmtBlk + 96 * t
def rDbgMbx : Nat := mgmtBlk + 0o1400000
def rMPSTAT : Nat := mgmtBlk + 0o1404000

/-- Word i of session s (R445). -/
def rSes (ses i : Nat) : Nat := ethBlk + 0o100000 + 12 * ses + i

/-- The command area, result area and doorbell of a mailbox with a window. -/
def mbCmd : MbSrc → Option Nat
  | .tenant t => some (rMbx t)
  | .network _ => none
  | .debug => some rDbgMbx

def mbRes : MbSrc → Option Nat
  | .tenant t => some (rMbx t + 32)
  | .network _ => none
  | .debug => some (rDbgMbx + 0o1000)

def mbDb : MbSrc → Option Nat
  | .tenant t => some (rMbx t + 95)
  | .network _ => none
  | .debug => some (rDbgMbx + 0o3777)

/-- A mailbox that exists (R482, R483). -/
def srcOk : MbSrc → Bool
  | .tenant t => decide (t < 4096)
  | .network n => decide (n < 16384)
  | .debug => true

/-! ### Notices (R486, R487) -/

def noticesOf (s : State) (t : Nat) : List Notice := tget [] s.wel.notices t

/-- NNOT and POST of a mailbox. -/
def noticeSync (t : Nat) (s : State) : State :=
  let n := (noticesOf s t).length
  (s.csf (rMbx t + 95) 12 18 n).csf (rMbx t + 95) 2 2 (if n = 0 then 0 else 1)

/-- Posts a notice; a 65th discards the oldest. -/
def notice (t code detail : Nat) (s : State) : State :=
  let q := noticesOf s t ++ [{ code := code, detail := detail, time := s.net.devTime }]
  let spill := decide (64 < q.length)
  let s := s.modWel fun w => { w with notices := tset [] w.notices t (if spill then q.drop 1 else q) }
  noticeSync t (if spill then s.csf (rMbx t + 95) 19 19 1 else s)

/-! ### The journal (R504 to R506) -/

/-- Octets 0 to 111 of an entry. -/
def jOctets (e : JEntry) : List Octet :=
  beOctets 8 e.seqno ++ packWords [timeHi e.time, timeLo e.time] ++ beOctets 1 e.src ++ beOctets 2 e.srcId ++ beOctets 1 e.role
    ++ beOctets 2 e.cmd ++ beOctets 1 e.err ++ beOctets 2 e.tscope ++ beOctets 2 0 ++ e.odig
    ++ packWords ((List.range 8).map fun i => e.detail.getD i 0)

/-- Adds one entry with its chain. -/
def jPut (src srcId role cmd err tscope : Nat) (odig : List Octet) (detail : List Word) (s : State) : State :=
  let e : JEntry :=
    { seqno := s.wel.jnext + 1, time := s.net.devTime, src := src, srcId := srcId, role := role, cmd := cmd, err := err,
      tscope := tscope, odig := odig, detail := detail.take 8, chain := [] }
  let prev := match s.wel.journal.getLast? with
    | some p => p.chain
    | none => zeros 48
  let e := { e with chain := sha384 (prev ++ jOctets e) }
  s.modWel fun w => { w with journal := w.journal ++ [e], jnext := w.jnext + 1 }

/-- Entries of one erase block, and of the whole area. -/
def jBlock : Nat := 409
def jMax : Nat := 256 * 409

/-- When every block is full, the block with the oldest entries is erased, and event 413 records what went (R505). -/
def jRoom (s : State) : State :=
  if s.wel.journal.length < jMax then s
  else
    let old := s.wel.journal.take jBlock
    let a := (old.head?.map JEntry.seqno).getD 0
    let b := (old.getLast?.map JEntry.seqno).getD 0
    jPut 0 0 0 0o413 0 0 (zeros 48) [hiW a, loW a, hiW b, loW b]
      (s.modWel fun w => { w with journal := w.journal.drop jBlock })

/-- A write of the journal by Welana (R555). -/
def jWrite (f : State → State) (s : State) : State := flashWrite .management .journal f s

/-- An event of R506, for tenant t, with its words. -/
def jEvent (code t : Nat) (words : List Word) (s : State) : State :=
  jWrite (fun s => jPut 0 0 0 code 0 t (zeros 48) words (jRoom s)) s

/-- The role of a source (R494): 0 none, 1 monitor, 2 operate, 3 configure, 4 tenant kernel. -/
def lifeState (s : State) : Nat := s.cf bootBlk 0 1

def srcRole (s : State) : MbSrc → Nat
  | .tenant _ => 4
  | .network n => s.cf (rSes n 0) 15 16
  | .debug => if lifeState s = 0 ∨ lifeState s = 3 then 3 else 1

def srcCode : MbSrc → Nat
  | .tenant _ => 1
  | .network _ => 2
  | .debug => 3

def srcIdOf : MbSrc → Nat
  | .tenant t => t
  | .network n => n
  | .debug => 0

/-- ROLE of a command that changes state: in SERVICE the debug mailbox issues those as a tenant kernel (R494, R504). -/
def jRole (s : State) (src : MbSrc) : Nat := if src = .debug ∧ lifeState s = 2 then 4 else srcRole s src

/-- The entry of a command (R504): `hide` gives the operand words that hold a key or salt. -/
def jCommand (src : MbSrc) (msg : List Word) (t : Nat) (hide : Nat → Bool) (s : State) : State :=
  let ops := (List.zipWith Prod.mk (List.range 8) (msg.drop 1)).map fun p => if hide (p.1 + 1) then 0 else p.2
  jWrite (fun s => jPut (srcCode src) (srcIdOf src) (jRole s src) (fld (msg.headD 0) 0 8) 0 t (sha384 (packWords msg)) ops (jRoom s)) s

/-! ### The configuration store (R508 to R511) -/

/-- The bank in use. -/
def storeBank (s : State) : Bank := if s.wel.bankInUse then s.wel.bankB else s.wel.bankA

/-- Every record of a bank in order: its base, then its deltas. -/
def Bank.recs (b : Bank) : List StoreRec := b.base ++ b.deltas.flatMap Delta.recs

/-- The records that stand: of each type and key the last, none where that one is of length 0. -/
def standing (rs : List StoreRec) : List StoreRec :=
  (rs.foldr (fun r (acc : List (Nat × List Nat) × List StoreRec) =>
    if acc.1.contains (r.rtype, r.key) then acc
    else ((r.rtype, r.key) :: acc.1, if r.data.isEmpty then acc.2 else r :: acc.2)) ([], [])).2

/-- A delta in its place by JSEQ, which rises (R512); the changes of one journal entry are one delta (log entry 83). -/
def insDelta (d : Delta) : List Delta → List Delta
  | [] => [d]
  | x :: r =>
    if d.jseq < x.jseq then d :: x :: r
    else if d.jseq = x.jseq then { x with recs := x.recs ++ d.recs } :: r
    else x :: insDelta d r

/-- A bank with the change of journal entry n, with the chain of DCHK that follows. -/
def Bank.addDelta (key : List Octet) (n : Nat) (recs : List StoreRec) (b : Bank) : Bank :=
  { b with deltas := chainDeltas key b.bchk (insDelta { jseq := max n (b.jseq + 1), recs := recs, dchk := [] } b.deltas) }

/-- JSEQ of the last change that a bank holds. -/
def Bank.lastJ (b : Bank) : Nat := (b.deltas.getLast?.map Delta.jseq).getD b.jseq

/-- The deltas of a bank fit their lengths and its delta area. -/
def Bank.fits (b : Bank) : Bool := (b.deltas.all fun d => decide (recsLen d.recs ≤ deltaMax)) && decide (b.used ≤ deltaArea)

def setBank (isB : Bool) (b : Bank) (s : State) : State :=
  s.modWel fun w => if isB then { w with bankB := b } else { w with bankA := b }

/-- The records `rs` become the base of the other bank, with SEQ one higher and JSEQ n, and that bank is in use (R511). -/
def rebase (n : Nat) (rs : List StoreRec) (s : State) : State :=
  let o := !s.wel.bankInUse
  flashWrite .management (.bank o) (fun s =>
    if baseMax < recsLen rs then s
    else (setBank o (newBank (storeKey s) o ((storeBank s).seq + 1) n rs) s).modWel fun w =>
      { w with bankInUse := o, rebaseAt := s.net.devTime }) s

/-- Appends the change of journal entry n to the bank in use; what its delta cannot hold goes into a new base (log entry 83). -/
def storeDeltaAt (n : Nat) (recs : List StoreRec) (s : State) : State :=
  if recs.isEmpty then s
  else flashWrite .management (.bank s.wel.bankInUse) (fun s =>
    let b := (storeBank s).addDelta (storeKey s) n recs
    if b.fits then setBank s.wel.bankInUse b s else rebase b.lastJ (standing b.recs) s) s

/-- The store has room for these records: as a delta of the bank in use, or with all that stands in a new base. -/
def takesDelta (recs : List StoreRec) (s : State) : Bool :=
  let b := (storeBank s).addDelta (storeKey s) s.wel.jnext recs
  b.fits || decide (recsLen (standing b.recs) ≤ baseMax)

/-- Adds the delta of the journal entry just written. -/
def storeDelta (recs : List StoreRec) (s : State) : State := storeDeltaAt s.wel.jnext recs s

/-! ### Messages and results (R488, R489, R484) -/

def msgCmd (m : List Word) : Nat := fld (m.headD 0) 0 8
def msgNW (m : List Word) : Nat := fld (m.headD 0) 9 17

/-- The codes of R497. -/
def cmdAssigned (c : Nat) : Bool :=
  decide (1 ≤ c ∧ c ≤ 5 ∨ 0o20 ≤ c ∧ c ≤ 0o24 ∨ 0o40 ≤ c ∧ c ≤ 0o42 ∨ 0o60 ≤ c ∧ c ≤ 0o66 ∨ 0o100 ≤ c ∧ c ≤ 0o106
    ∨ 0o120 ≤ c ∧ c ≤ 0o121 ∨ 0o140 ≤ c ∧ c ≤ 0o142 ∨ 0o160 ≤ c ∧ c ≤ 0o167 ∨ c = 0o170)

/-- Word i of a command message, 0 where it has none. -/
def opW (m : List Word) (i : Nat) : Word := m.getD i 0

/-- The tenant on whose objects a command acts. -/
def msgTen (src : MbSrc) (m : List Word) : Nat :=
  match src with
  | .tenant t => t
  | _ => fld (m.headD 0) 18 29

/-- Word 0 of a result. -/
def resHead (cmd nw err detail : Nat) : Word := place 0 8 cmd ||| place 9 17 nw ||| place 18 23 err ||| place 24 35 detail

/-- MPSTAT.QLEN: commands queued or running (R481). -/
def qlenSync (s : State) : State := s.csf rMPSTAT 15 27 (s.wel.queue.length + s.wel.ljobs.length)

/-- Posts a result message to its source: the result area, DONE, RING and CSEQ; for a network mailbox, the response that
the Septeg engine sends. The command runs no more. -/
def postResult (src : MbSrc) (ws : List Word) (s : State) : State :=
  let s := qlenSync s
  match src with
  | .network n => s.modNet fun x =>
      { x with mbx := tset .reset x.mbx n { tget .reset x.mbx n with ready := some ws } }
  | _ =>
    match mbRes src, mbDb src with
    | some a, some d =>
      let s := s.css a ws
      let db := s.cg d
      s.cs d (setFld (setFld db 0 1 1) 3 11 ((fld db 3 11 + 1) % 512))
    | _, _ => s

/-- A result with an error. -/
def postErr (src : MbSrc) (msg : List Word) (err detail : Nat) (s : State) : State :=
  postResult src [resHead (msgCmd msg) 0 err detail] s

/-- A result of a command done. -/
def postOk (src : MbSrc) (msg : List Word) (ws : List Word) (s : State) : State :=
  postResult src (resHead (msgCmd msg) ws.length 0 0 :: ws) s

end Sys2Proof.Machine
end

