-- ==== Sys2Proof/Machine/Frames.lean ====
section
/-! DEFINITION. Frames that the device sends: port and session fields, transmit queues (R421), IP and UDP headers (R416, R419,
R420, R444), R-TAGs (R431), Septeg frames (R442 to R444, R449) and their counters (R441, R475). -/

namespace Sys2Proof.Machine

/-! ### Ports -/

def portBlk (p : Nat) : Nat := ethBlk + 0o10000 * p
def rPSTAT (p : Nat) : Nat := portBlk p + 1
def portEn (s : State) (p : Nat) : Bool := s.cb (portBlk p) 0
def portLink (s : State) (p : Nat) : Bool := s.cb (rPSTAT p) 0
def isCuff (s : State) (p : Nat) : Bool := s.cb (portBlk p) 3
def cuffPorts (s : State) : List Nat := (List.range 4).filter (isCuff s)

def State.port (s : State) (p : Nat) : Port := tget .reset s.net.ports p
def State.modPort (s : State) (p : Nat) (f : Port → Port) : State :=
  s.modNet fun n => { n with ports := tset .reset n.ports p (f (tget .reset n.ports p)) }

/-- Counter i of port p (R441). -/
def pCount (p i : Nat) (s : State) : State := s.cadd2 (portBlk p + 0o300 + 2 * i) 1

/-- Counter i of the Septeg engine (R475). -/
def sgCountN (i n : Nat) (s : State) : State := if n = 0 then s else s.cadd2 (ethBlk + 0o700000 + 2 * i) n
def sgCount (i : Nat) (s : State) : State := sgCountN i 1 s

/-- The unicast address of a port: six octets of PMAC, and the address of the same layout at another offset. -/
def macAt (s : State) (off : Nat) : List Octet :=
  let a := s.cg off
  let b := s.cg (off + 1)
  [laneOctet a 0, laneOctet a 1, laneOctet a 2, laneOctet a 3, laneOctet b 0, laneOctet b 1]

def portMac (s : State) (p : Nat) : List Octet := macAt s (portBlk p + 2)

/-- IPv4 and IPv6 address i of a port (R418). -/
def portIp4 (s : State) (p i : Nat) : List Octet := octetsOf [s.cg (portBlk p + 0o200 + i)]
def portIp6 (s : State) (p i : Nat) : List Octet := octetsOf (s.cgs (portBlk p + 0o204 + 4 * i) 4)
def ip4Valid (s : State) (p i : Nat) : Bool := s.cb (portBlk p + 0o224) i
def ip6Valid (s : State) (p i : Nat) : Bool := s.cb (portBlk p + 0o224) (4 + i)

/-- The transmit queue of class k of a port. -/
def txQ (s : State) (p k : Nat) : List TxFrame := tget [] (s.port p).txq k
def setTxQ (p k : Nat) (q : List TxFrame) (s : State) : State := s.modPort p fun x => { x with txq := tset [] x.txq k q }

/-- A frame is padded to the least length that has 64 octets with its FCS (R410; PRESUMED from 802.3: log entry 14). -/
def padFrame (os : List Octet) : List Octet := os ++ zeros (60 - os.length)

/-- Queues a frame for a port; while LINK is 0 it is discarded and counted (R412); at a full queue, counter `full` of the
Septeg engine where one is given (R462). A frame beyond 1,522 octets with its FCS is not sent (R410; DESIGN CHOICE: log entry
79). -/
def queueFrame (p cls : Nat) (os : List Octet) (full : Option Nat) (s : State) : State :=
  if !portLink s p then pCount p 13 s
  else if 1518 < os.length then s
  else
    let q := txQ s p cls
    if 64 ≤ q.length then (match full with
      | some i => sgCount i s
      | none => s)
    else setTxQ p cls (q ++ [{ octets := padFrame os, cls := cls, frags := 0 }]) s

/-! ### Checksums and headers -/

/-- The sum of sixteen-bit units, an odd octet padded with zero. -/
def sum16 : List Octet → Nat
  | a :: b :: t => a.toNat * 256 + b.toNat + sum16 t
  | [a] => a.toNat * 256
  | [] => 0

/-- The one's-complement checksum. -/
def fold16 (n : Nat) : Nat :=
  let a := n % 65536 + n / 65536
  let b := a % 65536 + a / 65536
  b % 65536 + b / 65536

def cksum (os : List Octet) : Nat := 65535 - fold16 (sum16 os)

/-- The pseudo-header sum of UDP or ICMPv6. -/
def pseudoSum (src dst : List Octet) (proto len : Nat) : Nat := sum16 src + sum16 dst + proto + len

/-- A UDP datagram with its checksum (R420). -/
def udpOf (src dst : List Octet) (sp dp : Nat) (pl : List Octet) : List Octet :=
  let len := 8 + pl.length
  let h := beOctets 2 sp ++ beOctets 2 dp ++ beOctets 2 len
  let c := 65535 - fold16 (pseudoSum src dst 17 len + sum16 (h ++ [0, 0] ++ pl))
  h ++ beOctets 2 (if c = 0 then 65535 else c) ++ pl

/-- An IPv4 packet with its header (R419, R444). -/
def ip4Of (src dst : List Octet) (proto ttl : Nat) (pl : List Octet) : List Octet :=
  let h := fun (c : Nat) => beOctets 2 0x4500 ++ beOctets 2 (20 + pl.length) ++ beOctets 2 0 ++ beOctets 2 0x4000
    ++ beOctets 1 ttl ++ beOctets 1 proto ++ beOctets 2 c ++ src ++ dst
  h (cksum (h 0)) ++ pl

/-- An IPv6 packet with its header. -/
def ip6Of (src dst : List Octet) (next hop : Nat) (pl : List Octet) : List Octet :=
  beOctets 4 0x60000000 ++ beOctets 2 pl.length ++ beOctets 1 next ++ beOctets 1 hop ++ src ++ dst ++ pl

/-- An Ethernet frame with one tag (R416), an R-TAG where one is given (R431), and its type. -/
def frameOf (dst src : List Octet) (pcp vid : Nat) (rtag : Option Nat) (ety : Nat) (pl : List Octet) : List Octet :=
  dst ++ src ++ beOctets 2 0x8100 ++ beOctets 2 (pcp * 8192 + vid)
    ++ (match rtag with
      | some n => beOctets 2 0xF1C1 ++ beOctets 2 0 ++ beOctets 2 n
      | none => [])
    ++ beOctets 2 ety ++ pl

/-! ### Sessions (R445) -/

def sesF (s : State) (ses i a b : Nat) : Nat := s.cf (rSes ses i) a b
def sesValid (s : State) (ses : Nat) : Bool := decide (ses < 16384) && s.cb (rSes ses 0) 0
def sesKind (s : State) (ses : Nat) : Nat := sesF s ses 0 1 2
def sesTenant (s : State) (ses : Nat) : Nat := sesF s ses 0 3 14
def sesRole (s : State) (ses : Nat) : Nat := sesF s ses 0 15 16
def sesMbx (s : State) (ses : Nat) : Nat := sesF s ses 0 17 20
def sesIp6 (s : State) (ses : Nat) : Bool := s.cb (rSes ses 0) 25
def sesTkid (s : State) (ses : Nat) : Nat := sesF s ses 0 29 29
def sesUp (s : State) (ses : Nat) : Bool := s.cb (rSes ses 11) 0
def sesIp (s : State) (ses : Nat) : List Octet :=
  if sesIp6 s ses then octetsOf (s.cgs (rSes ses 5) 4) else octetsOf [s.cg (rSes ses 5)]

/-- Key slot k of a session. -/
def keyIdx (ses k : Nat) : Nat := 2 * ses + k
def keyOf (s : State) (ses k : Nat) : KeySlot := tget .reset s.net.keys (keyIdx ses k)
def modKey (ses k : Nat) (f : KeySlot → KeySlot) (s : State) : State :=
  s.modNet fun n => { n with keys := tset .reset n.keys (keyIdx ses k) (f (tget .reset n.keys (keyIdx ses k))) }

/-- A slot from which nothing can be sent: not loaded, or its counter at its end (R449). -/
def keyDead (k : KeySlot) : Bool := !k.loaded || decide (2 ^ 48 - 1 ≤ k.txc)

/-- KEYS and EXH of a session (R445, R449). -/
def keySync (ses : Nat) (s : State) : State :=
  if sesKind s ses = 3 then (s.csf (rSes ses 11) 1 2 0).csf (rSes ses 11) 3 3 0
  else
    let k0 := keyOf s ses 0
    let k1 := keyOf s ses 1
    let cur := keyOf s ses (sesTkid s ses)
    (s.csf (rSes ses 11) 1 2 (2 * k0.loaded.toNat + k1.loaded.toNat)).csf (rSes ses 11) 3 3 (keyDead cur).toNat

/-- The ports on which a session sends, with the R-TAG of its stream (R431, R462, R471). -/
def sesPorts (s : State) (ses : Nat) : List Nat :=
  if sesKind s ses = 2 then cuffPorts s
  else if s.cb (rSes ses 1) 22 then
    let h := sesF s ses 1 12 21
    (List.range 4).filter fun p => s.cb (ethBlk + 0o50000 + 8 * h + 7) (1 + p)
  else [sesF s ses 1 23 24]

/-- The next sequence number of the session's stream, where it generates one (R431). -/
def streamSeq (ses : Nat) (s : State) : Option Nat × State :=
  let h := sesF s ses 1 12 21
  if sesKind s ses ≠ 2 && s.cb (rSes ses 1) 22 && s.cb (ethBlk + 0o50000 + 8 * h + 7) 0 then
    let x := tget .reset s.net.streams h
    (some x.gen, s.modNet fun n =>
      { n with streams := tset .reset n.streams h { x with gen := (x.gen + 1) % 65536 } })
  else (none, s)

/-- Carries a datagram of a session in a frame from port p. -/
def sesFrame (s : State) (ses p : Nat) (rtag : Option Nat) (dg : List Octet) : List Octet :=
  let lip := sesF s ses 1 25 26
  let sp := s.cf (ethBlk + 0o40000) 0 15
  let dp := sesF s ses 2 0 15
  let dst := sesIp s ses
  let hdr := frameOf (macAt s (rSes ses 3)) (portMac s p) (sesF s ses 0 26 28) (sesF s ses 1 0 11) rtag
  if sesIp6 s ses then
    let src := portIp6 s p lip
    hdr 0x86DD (ip6Of src dst 17 64 (udpOf src dst sp dp dg))
  else
    let src := portIp4 s p lip
    hdr 0x0800 (ip4Of src dst 17 64 (udpOf src dst sp dp dg))

/-! ### Septeg frames (R442 to R444, R449) -/

def sgHeader (kid dir ty ses seq len txid status : Nat) : List Octet :=
  beOctets 1 (16 + 8 * kid + 4 * dir) ++ beOctets 1 ty ++ beOctets 2 ses ++ beOctets 6 seq ++ beOctets 2 len
    ++ beOctets 2 txid ++ beOctets 1 status ++ [0]

def sgNonce (salt : List Octet) (dir side seq : Nat) : List Octet :=
  salt ++ beOctets 1 (dir * 128) ++ beOctets 1 (side * 128) ++ beOctets 6 seq

/-- SIDE as the nonce of a session takes it. -/
def sesSide (s : State) (ses : Nat) : Nat := if sesKind s ses = 2 then sesF s ses 2 30 30 else 0

/-- Sends one Septeg frame on a session (R444, R449): nothing before transmission is ungated (R472), nor from a slot that
is exhausted or not loaded. -/
def sgSend (ses ty txid status : Nat) (pl : List Octet) (s : State) : State :=
  if !vok s || !sesValid s ses || sesKind s ses = 3 then s
  else
    let kid := sesTkid s ses
    let k := keyOf s ses kid
    if keyDead k then keySync ses (sgCount 12 s)
    else
      let seq := k.txc + 1
      let s := keySync ses (modKey ses kid (fun k => { k with txc := seq }) s)
      let h := sgHeader kid 1 ty ses seq pl.length txid status
      let c := gcmSeal k.key (sgNonce k.salt 1 (sesSide s ses) seq) h pl
      let r := streamSeq ses s
      let cls := sesF s ses 0 26 28
      (sesPorts r.2 ses).foldl (fun s p => queueFrame p cls (sesFrame s ses p r.1 (h ++ c.1 ++ c.2)) (some 11) s) r.2

/-- Transaction types (R443). -/
def ttPublish : Nat := 1
def ttRead : Nat := 2
def ttWrite : Nat := 3
def ttMailbox : Nat := 4
def ttHeartbeat : Nat := 5
def ttTime : Nat := 6
def ttPairsync : Nat := 7

/-- A response (R472, R473). -/
def sgRespond (ses ty txid status : Nat) (pl : List Octet) (s : State) : State := sgSend ses (128 + ty) txid status pl s

/-! ### The PAIRSYNC stream as payloads (R470, R471) -/

/-- The octets of a record. -/
def recOctets : PairRec → List Octet
  | .line l ws => [1] ++ beOctets 4 l ++ packWords ws
  | .context k ws => [2] ++ beOctets 2 k ++ packWords ws
  | .commit k t => [3] ++ beOctets 2 k ++ packWords [timeHi t, timeLo t]
  | .epoch t => [4] ++ packWords [timeHi t, timeLo t]

/-- As many records as one payload takes: 255, and 1,408 octets. -/
def pairBatch : Nat → Nat → List (Nat × PairRec) → List (Nat × PairRec)
  | 0, _, _ => []
  | _, _, [] => []
  | n + 1, room, r :: t =>
    let o := (recOctets r.2).length
    if o ≤ room then r :: pairBatch n (room - o) t else []

/-- Sends records in order, in as few frames as hold them. -/
def pairSend : Nat → List (Nat × PairRec) → State → State
  | 0, _, s => s
  | _, [], s => s
  | n + 1, rs, s =>
    let b := pairBatch 255 1403 rs
    let no := (b.head?.map Prod.fst).getD 0
    pairSend n (rs.drop (max 1 b.length))
      (sgSend s.wel.partner ttPairsync 0 0
        (beOctets 4 no ++ beOctets 1 b.length ++ b.flatMap fun r => recOctets r.2) s)

end Sys2Proof.Machine
end

