-- ==== Sys2Proof/Machine/Pair.lean ====
section
/-! DEFINITION. What memory holds as the home slices order it, the installed descriptors, and the records of the PAIRSYNC
stream (R470, R541, R543). -/

namespace Sys2Proof.Machine

/-! ### The committed value of a line -/

/-- The copy of a line in M in some L1 data cache. -/
def ownerCopy (s : State) (l : Nat) : Option L1Line :=
  s.eng.findSome? fun p => p.2.mem.l1d.find? fun x => x.line = l && x.st = .m

/-- The owner of a line in E or M. -/
def HLine.own (x : HLine) : Option Nat := if x.st = .e || x.st = .m then some x.owner else none

/-- The owner's words of a line on their way home: a WBK or dirty FDATA, in flight or NAKed (R329, R330, R338). -/
def comingHome (s : State) (l : Nat) : Option (List Word × Nat) :=
  match (s.hl l).bind HLine.own with
  | none => none
  | some o => (s.home.net ++ s.home.retry.map Ticket.msg).findSome? fun m => match m with
    | .wbk e y ws p => if e = o && y = l then some (ws, p) else none
    | .fdata e y ws p true => if e = o && y = l then some (ws, p) else none
    | _ => none

/-- The words of a line that the home's order of writes has reached: the copy in M, words coming home, the home copy, or DRAM
(R326, R349). -/
def homeLine (s : State) (l : Nat) : List Word × Bool :=
  match ownerCopy s l with
  | some x => (x.ws, decide (x.pois ≠ 0))
  | none =>
    match comingHome s l with
    | some p => (p.1, decide (p.2 ≠ 0))
    | none =>
      match s.hl l with
      | some x => rsSeen x.ws x.chk x.poison
      | none =>
        let r := (memRead l s).1
        (r.1, r.2.1)

/-- The committed words of a line and whether it is poisoned. The write set of a commit is visible from its commit point, before
each PUBLISH has been accepted (R304); the cases are those of the PUBLISH (R336, R563). -/
def peekLine (s : State) (l : Nat) : List Word × Bool :=
  let b := homeLine s l
  match s.home.tents.find? fun t => t.line = l && publishing s t with
  | none => b
  | some t =>
    let v := rsSeen t.ws t.chk t.poison
    if lockedWin s (8 * l) then b
    else if v.2 then (zeroLine, true)
    else if b.2 && decide (t.en ≠ fullEn) then b
    else (mergeWords t.en b.1 v.1, false)

/-- A committed word of memory. -/
def peek (s : State) (a : Nat) : Word := (peekLine s (a / 8)).1.getD (a % 8) 0

/-- n committed words from an address on. -/
def peeks (s : State) (a n : Nat) : List Word := (List.range n).map fun k => peek s (a + k)

/-! ### Installed descriptors (R85) -/

/-- First line of the descriptor area. -/
def dtFirst (s : State) : Nat := s.cf rDTBASE 0 13 * 262144

/-- Whether a line lies in the descriptor area of 2 MW. -/
def inDt (s : State) (l : Nat) : Bool := decide (dtFirst s ≤ l ∧ l < dtFirst s + 262144)

/-- Lines of the descriptor area that can hold a descriptor that is not absent. -/
def dtLines (s : State) : List Nat :=
  ((listedLines s ++ s.home.lines.map Prod.fst ++ s.eng.flatMap (fun p => p.2.mem.l1d.map L1Line.line)).filter
    (inDt s)).eraseDups

/-- A descriptor with its place in the area. -/
structure Desc where
  t : Nat
  i : Nat
  d0 : Word
  d1 : Word
deriving DecidableEq, Repr

/-- Every descriptor that is not absent. -/
def allDescs (s : State) : List Desc :=
  (dtLines s).flatMap fun l =>
    let ws := (peekLine s l).1
    (List.range 4).filterMap fun j =>
      let w1 := ws.getD (2 * j + 1) 0
      let n := 4 * (l - dtFirst s) + j
      if descAbsent w1 then none else some { t := n / 256, i := n % 256, d0 := ws.getD (2 * j) 0, d1 := w1 }

def Desc.base (d : Desc) : Nat := fld d.d0 1 35
def Desc.typ (d : Desc) : Nat := fld d.d1 0 2
def Desc.size (d : Desc) : Nat := descSize d.d1
def Desc.owner (d : Desc) : Nat := fld d.d1 6 17

/-- The descriptor of index i of tenant t as memory holds it. -/
def descOf (s : State) (t i : Nat) : Word × Word := (peek s (descAddr s t i), peek s (descAddr s t i + 1))

/-- A segment covers a word of the line. -/
def Desc.covers (d : Desc) (l : Nat) : Bool := decide (d.base < 8 * l + 8 ∧ 8 * l < d.base + d.size)

/-! ### The PAIRSYNC stream (R470, R541) -/

def rPAIRSTAT : Nat := mgmtBlk + 0o1404010

/-- The records kept for retransmission, in octets. -/
def keptOctets (s : State) : Nat := (s.wel.kept.map fun r => (recOctets r.2).length).sum

/-- A resynchronisation is owed: the standby is no longer known to be synchronised (R543). -/
def needResync (s : State) : State :=
  let s := s.csf rPAIRSTAT 7 7 1
  { s with wel := { s.wel with ackSync := false } }

/-- The primary enters a record in the stream and keeps it for retransmission; more than 64 MiB unacknowledged, in records of at most 41
octets, ask for a resynchronisation (R543). -/
def pairAppend (r : PairRec) (s : State) : State :=
  let s := { s with wel := { s.wel with kept := s.wel.kept ++ [(s.wel.recNext, r)], recNext := (s.wel.recNext + 1) % 2 ^ 32 } }
  if 1636801 ≤ s.wel.kept.length && decide (64 * 1048576 < keptOctets s) then needResync s else s

/-- Sends the records that have not been sent (R541). -/
def pairFlush (s : State) : State :=
  let rs := s.wel.kept.dropWhile fun r => r.1 ≠ s.wel.recSent
  let prog := if rs.length = s.wel.kept.length then s.net.devTime else s.wel.progAt
  let s := pairSend rs.length rs s
  { s with wel := { s.wel with recSent := s.wel.recNext, progAt := prog } }

/-- The primary has a standby to send its stream to: PAIRSTAT.ROLE is primary and the partner session is up. -/
def pairRoleOf (s : State) : Nat := s.cf rPAIRSTAT 0 1
def isPrimary (s : State) : Bool := pairRoleOf s = 1
def isStandby (s : State) : Bool := pairRoleOf s = 2

/-- LAG: at the standby, how far its last applied epoch marker lies behind its own device time, in µs (R543). -/
def pairLag (s : State) : Nat :=
  if isStandby s ∧ s.wel.lastEpoch ≠ 0 then min 0o77777777 ((s.net.devTime - s.wel.lastEpoch) / 64000) else 0

def streaming (s : State) : Bool := isPrimary s && s.cb rPAIRSTAT 4

/-- A line lies in a data segment of a tenant other than 0 (R541). -/
def inTenantData (s : State) (l : Nat) : Bool :=
  (allDescs s).any fun d => d.t ≠ 0 && d.typ = tyData && d.covers l

/-- Some context names segment (t, i) in INIDX (R541). -/
def namedInput (s : State) (t i : Nat) : Bool :=
  s.ctl.any fun p => decide (ctxBlk ≤ p.1 ∧ p.1 < ctxBlk + 0o2000000) && p.1 % 32 = 0
    && fld p.2 0 11 = t && (let k := (p.1 - ctxBlk) / 32
      s.cf (rCtx k 10) 0 7 = i && decide (s.cf (rCtx k 10) 8 23 ≠ 0))

/-- The stream's part in a write by an agent without a cache: a line record and an epoch marker (R541). -/
def pairWrite (l : Nat) (s : State) : State :=
  if streaming s && (allDescs s).any fun d => d.t ≠ 0 && d.typ = tyData && d.covers l && !namedInput s d.t d.i then
    pairFlush (pairAppend (.epoch s.net.devTime) (pairAppend (.line l (peekLine s l).1) s))
  else s

end Sys2Proof.Machine
end

