-- ==== Sys2Proof/Machine/Home.lean ====
section
/-! DEFINITION. The home slices: ways (R377, R378), eviction (R324), order and retries (R337, R338), the transactions of
R328 to R334 with the service of R647, and watches (R339, R650). Each row of the home acts on its message in flight; where
none is in flight, the command itself brings the request. -/

namespace Sys2Proof.Machine

/-! ### Ways (R377) -/

def tenSealed (s : State) (t : Nat) : Bool := s.cb (rTen t 0) 2

/-- BLOCKS of a tenant: bit b (R361). -/
def blockBit (s : State) (t b : Nat) : Bool := if b < 36 then s.cb (rTen t 3) b else s.cb (rTen t 4) (b - 36)

/-- The tenants whose records list anything. -/
def tenList (s : State) : List Nat :=
  ((s.ctl.filter fun p => decide (rTen 0 0 ≤ p.1 ∧ p.1 < rTen 0 0 + 32768)).map fun p => (p.1 - rTen 0 0) / 8).eraseDups

/-- Whether a request for tenant t may use way w of the set of line l. -/
def wayUsable (s : State) (t l w : Nat) : Bool :=
  let b := 16 * w + setOf l / 256
  if tenSealed s t then decide (w < 4) && blockBit s t b
  else decide (4 ≤ w) || !((tenList s).any fun u => blockBit s u b)

def usableWays (s : State) (t l : Nat) : List Nat := (List.range 16).filter (wayUsable s t l)

/-- Lines of one set of one home slice. -/
def sameSet (l m : Nat) : Bool := homeOf l = homeOf m && setOf l = setOf m

/-- The committed line in way w of the set of line l. -/
def wayLine (s : State) (l w : Nat) : Option (Nat × HLine) :=
  s.home.lines.findSome? fun p => match p.2 with
    | some x => if x.way = w && sameSet p.1 l then some (p.1, x) else none
    | none => none

/-- Whether way w of the set of line l holds a tentative line. -/
def wayTent (s : State) (l w : Nat) : Bool := s.home.tents.any fun t => t.way = w && sameSet t.line l

/-- What a request that needs a way finds: a free way, a least recently used line to evict, an eviction of its own under
way, or none (R647). -/
inductive Room where
  | way (w : Nat)
  | evict (v : Nat) (x : HLine)
  | wait
  | none

/-- The least recently used of some lines. -/
def lruLine : List (Nat × HLine) → Option (Nat × HLine)
  | [] => none
  | p :: t => match lruLine t with
    | some q => some (if p.2.age ≤ q.2.age then p else q)
    | none => some p

def roomFor (s : State) (ag : Agent) (t l : Nat) : Room :=
  let ws := usableWays s t l
  match ws.find? fun w => (wayLine s l w).isNone && !wayTent s l w with
  | some w => .way w
  | none =>
    if s.home.txns.any fun x => x.kind = .evict && x.req = ag && sameSet x.line l then .wait
    else match lruLine (((ws.filter fun w => !wayTent s l w).filterMap (wayLine s l)).filter
        fun p => !p.2.busy && !p.2.lock) with
      | some (v, x) => .evict v x
      | none => .none

/-! ### Lines and holders -/

/-- A line entry is used: it becomes the most recently used. The requests that obtain a line or read it as RDO use it; PUBLISH, WBK and
WRT do not (DESIGN CHOICE, log entry 99). -/
def hTouch (l : Nat) (s : State) : State :=
  let a := s.home.age + 1
  (s.modHome fun h => { h with age := a }).modHl l fun x => { x with age := a }

/-- A saturating count of HSTAT of a home slice, and HLOST (R322, R336, R341). -/
def hstat (h a b : Nat) (s : State) : State := s.csat (rHSTAT h) a b

/-- The home slice decodes a line that it reads (R322, R45). An uncorrectable one is marked poisoned and counted. -/
def hDecode (l : Nat) (s : State) : State :=
  match s.hl l with
  | none => s
  | some x =>
    if x.poison || x.chk = rsCheck x.ws then s
    else match rsDecode x.ws x.chk with
      | .good => s
      | .fixed ws c => s.modHl l fun x => { x with ws := ws, chk := c }
      | _ => hstat (homeOf l) 27 35 (s.modHl l fun x => { x with poison := true })

/-- The home copy becomes these words. -/
def HLine.put (x : HLine) (ws : List Word) : HLine := { x with ws := ws, chk := rsCheck ws }

/-- Engines in service of a cluster. -/
def clusterEngs (s : State) (c : Nat) : List Nat :=
  ((List.range 12).map (12 * c + ·)).filter fun e => (s.e e).run.inService

/-- Engines that may hold a copy in S. -/
def sharerEngs (s : State) (x : HLine) : List Nat :=
  if x.st = .s then ((List.range 12).filter fun c => enHas x.sharers c).flatMap (clusterEngs s) else []

/-- The engines that may hold T copies of a line, but for those of context k. -/
def tHolders (s : State) (l : Nat) (k : Option Nat) : List Nat :=
  (s.home.tents.filter fun t => t.line = l && some t.ctx ≠ k).filterMap TLine.holder

def clearHolders (l : Nat) (k : Option Nat) (s : State) : State :=
  s.modHome fun h => { h with tents := h.tents.map fun t => if t.line = l && some t.ctx ≠ k then { t with holder := none } else t }

/-- INV to the HOLDER of each tentative line of a line whose committed copy changes (R333). -/
def invHolders (l : Nat) (s : State) : State := clearHolders l none (awaitInv l false (tHolders s l none) s)

/-- An entry leaves the home cache: a line that is newer than DRAM is decoded and written to it (R322, R324). Of a DIRTY line
that the home slice has found uncorrectable, DRAM receives the words and the check word as they stand, which the controller finds
uncorrectable in its turn (DESIGN CHOICE, log entry 67); of a Lost line, the poison check word (R47). -/
def dropEntry (l : Nat) (s : State) : State :=
  let s := hDecode l s
  let s := match s.hl l with
    | some x =>
      if !x.dirty then s else if !x.poison then memWrite l x.ws s
      else if x.st = DirState.lost then memPoison l s else memRaw l x.ws x.chk s
    | none => s
  s.setHl l none

/-- A committed line is entered in way w, from DRAM; answers where it came from. -/
def enterLine (l w : Nat) (s : State) : Nat × State :=
  let r := memRead l s
  let x : HLine :=
    { st := .i, sharers := 0, owner := 0, dirty := false, poison := r.1.2.1, busy := false, lock := false, ws := r.1.1,
      chk := if r.1.2.1 then poisonCheck else rsCheck r.1.1, way := w, age := 0 }
  (r.1.2.2, hTouch l (r.2.setHl l (some x)))

/-- The eviction of a line that engines may hold: RCL to the owner or to the sharer clusters (R324). -/
def startEvict (ag : Agent) (t v : Nat) (es : List Nat) (s : State) : State :=
  let tx : Txn := { line := v, req := ag, tenant := t, kind := .evict, acks := clustersOf es, owner := none, unc := false,
                    place := 0 }
  sendAll (es.map fun e => .rcl e v)
    ((s.modHl v fun x => { x with busy := true }).modHome fun h => { h with txns := h.txns ++ [tx] })

/-- What a request finds of its committed line: the entry and the place it came from; an eviction to wait for; or no
way. -/
inductive Obt where
  | ready (place : Nat)
  | waiting
  | uncached

def enterNew (ag : Agent) (t l : Nat) (s : State) : Obt × State :=
  match roomFor s ag t l with
  | .way w => let r := enterLine l w s; (.ready r.1, r.2)
  | .wait => (.waiting, s)
  | .none => (.uncached, s)
  | .evict v x =>
    match sharerEngs s x ++ x.own.toList with
    | [] => let r := enterLine l x.way (dropEntry v s); (.ready r.1, r.2)
    | es => (.waiting, startEvict ag t v es s)

/-- A line that is held in a way which the request may not use leaves it first, as under replacement (R377). -/
def obtain_ (ag : Agent) (t l : Nat) (s : State) : Obt × State :=
  match s.hl l with
  | some x =>
    if wayUsable s t l x.way then (.ready 0, hTouch l (hDecode l s))
    else match sharerEngs s x ++ x.own.toList with
      | [] => enterNew ag t l (dropEntry l s)
      | es => (.waiting, startEvict ag t l es s)
  | none => enterNew ag t l s

/-! ### Watches (R339, R650) -/

/-- Applies f to every entry of a context that waits anywhere. -/
def modEntries (k : Nat) (f : Entry → Entry) (s : State) : State :=
  let g := fun (x : Entry) => if x.ctx = k then f x else x
  s.modRel fun r =>
    { r with deques := r.deques.map fun p => (p.1, p.2.map g), overflow := r.overflow.map (fun p => (p.1, p.2.map g)),
             yielded := r.yielded.map fun p => (p.1, g p.2) }

def granHas (w : WGran) (l : Nat) : Bool := decide (w.gran.first ≤ l ∧ l < w.gran.first + w.gran.size)

/-- A write to a granule that is watched for a context: a failure record with cause 02 for its STC, in CARRY or at the
claiming engine (R650). -/
def ctxWatchHit (k l : Nat) (s : State) : State :=
  let s := s.modHome fun h => { h with cwatches := h.cwatches.filter fun w => !(w.ctx = k && w.line = l) }
  let rec_ := fun (w : WGran) => ({ cause := 2, seg := w.seg, off := w.off } : FailRec)
  match engOf s k with
  | some e => s.modE e fun g => g.modMem fun m =>
      { m with fails := m.fails ++ (m.watch.filter (granHas · l)).map rec_, watch := m.watch.filter fun w => !granHas w l }
  | none => modEntries k (fun x =>
      { x with carry := { x.carry with fails := x.carry.fails ++ (x.carry.grans.filter (granHas · l)).map rec_,
                                       grans := x.carry.grans.filter fun w => !granHas w l } }) s

/-- RSVL for every watch of line l but those of the writer (R339), and the records of R650. -/
def tellWatches (l : Nat) (writer : Option Nat) (s : State) : State :=
  let es := ((s.home.watches.filter fun w => w.line = l && some w.e ≠ writer).map Watch.e).eraseDups
  let ks := ((s.home.cwatches.filter fun w => w.line = l).map CtxWatch.ctx).eraseDups
  ks.foldl (fun s k => ctxWatchHit k l s) (sendAll (es.map fun e => .rsvl e l) s)

/-! ### Order (R337, R338) -/

/-- The line is under a transaction or locked. -/
def lineHeld (s : State) (l : Nat) : Bool :=
  s.home.txns.any (fun t => t.line = l) || (match s.hl l with
    | some x => x.busy || x.lock
    | none => false) || s.home.tents.any fun t => t.line = l && t.lock

/-- A request may be accepted: nothing holds the line, and it is the oldest of the line's retry table. -/
def gateOpen (s : State) (l : Nat) (m : Msg) : Bool :=
  !lineHeld s l && (match s.home.retry.find? fun t => t.line = l with
    | some t => t.msg = m
    | none => true)

/-- Takes a message out of those in flight. -/
def unsend (m : Msg) (s : State) : State := s.modHome fun h => { h with net := h.net.erase m }

/-- The request is refused for now: it enters the retry table, or keeps its place there (R338). -/
def nakReq (ag : Agent) (l : Nat) (m : Msg) (s : State) : State :=
  let s := s.modHome fun h =>
    { h with retry := if h.retry.any fun t => t.msg = m then
        h.retry.map fun t => if t.msg = m then { t with naks := t.naks + 1 } else t
      else h.retry ++ [{ line := l, req := ag, naks := 1, msg := m, due := 0 }] }
  send (.nak ag l) s

/-- The gate of R328 and R338: the request goes on, its ticket gone, or it is NAKed. -/
def gate (ag : Agent) (l : Nat) (m : Msg) (k : State → State) (s : State) : State :=
  let s := unsend m s
  if gateOpen s l m then k (s.modHome fun h => { h with retry := h.retry.filter fun t => t.msg ≠ m }) else nakReq ag l m s

/-- A request that waits for an eviction stays in flight. -/
def putBack (m : Msg) (s : State) : State := if s.home.net.contains m then s else send m s

/-! ### Merging -/

/-- The words of a line with the lanes enabled in a 32-bit mask replaced: bit 4 k + j for lane j of word k. -/
def mergeLanes (en : Nat) (old new : List Word) : List Word :=
  (List.range 8).map fun k =>
    (List.range 4).foldl (fun w j =>
      if enHas en (4 * k + j) then setFld w (9 * j) (9 * j + 8) (lane (new.getD k 0) j) else w) (old.getD k 0)

/-- Word enables as lane enables. -/
def lanesOfWords (en : Nat) : Nat := (List.range 8).foldl (fun a k => if enHas en k then a + 15 * 16 ^ k else a) 0

/-! ### The end of a transaction -/

/-- Changes the tentative line of line l and context k. -/
def modTent (l k : Nat) (f : TLine → TLine) (s : State) : State :=
  s.modHome fun h => { h with tents := h.tents.map fun t => if t.line = l && t.ctx = k then f t else t }

/-- The tentative line of line l and context k. -/
def tentOf (s : State) (l k : Nat) : Option TLine := s.home.tents.find? fun t => t.line = l && t.ctx = k

/-- The tentative words become these. -/
def TLine.put (x : TLine) (ws : List Word) : TLine := { x with ws := ws, chk := rsCheck ws }

/-- The home slice decodes a tentative line that it reads (R322). -/
def tDecode (l k : Nat) (s : State) : State :=
  match tentOf s l k with
  | none => s
  | some x =>
    if x.poison || x.chk = rsCheck x.ws then s
    else match rsDecode x.ws x.chk with
      | .good => s
      | .fixed ws c => modTent l k (fun x => { x with ws := ws, chk := c }) s
      | _ => hstat (homeOf l) 27 35 (modTent l k (fun x => { x with poison := true }) s)

/-- The T copy that a tentative line makes of a committed line: words and the poison mark of each word (R332, R46). -/
def TLine.view (t : TLine) (ws : List Word) (pois : Bool) : List Word × Nat :=
  (mergeWords t.en ws t.ws, (if pois then fullEn - t.en else 0) + if t.poison then t.en else 0)

def setHolder (l k e : Nat) (s : State) : State := modTent l k (fun t => { t with holder := some e }) s

/-- DATA for a load (R328, R332): T with the tentative words of the context where it has a tentative line; else as
granted. -/
def supply (ag : Agent) (l : Nat) (ctx : Option Nat) (g : Grant) (ws : List Word) (pois : Bool) (place : Nat) (s : State) :
    State :=
  let plain := send (.data ag l g ws (if pois then fullEn else 0) place) s
  match ctx, ag with
  | some k, .engine e =>
    let s := tDecode l k s
    match tentOf s l k with
    | some t => let v := t.view ws pois; send (.data ag l (.t k) v.1 v.2 place) (setHolder l k e s)
    | none => plain
  | _, _ => plain

def shBit (e : Nat) : Nat := 2 ^ (e / 12)

/-- SHARERS with the cluster of engine e. -/
def addSharer (x e : Nat) : Nat := if enHas x (e / 12) then x else x + shBit e

/-- The lock of context k at home h is answered once each of its tentative lines there is locked and settled (R334). -/
def lockAnswer (e k h : Nat) (s : State) : State :=
  let mine := s.home.tents.filter fun t => t.ctx = k && homeOf t.line = h
  let ready := mine.all fun t => t.lock && !(s.home.txns.any fun x => x.line = t.line)
  match (s.e e).run.stall with
  | some x => match x.why with
    | .locks hs =>
      if ready then s.modE e fun g => g.modRun fun r => { r with stall := some { x with why := .locks (hs.filter (· ≠ h)) } }
      else s
    | _ => s
  | none => s

/-- The table's last column for each request, once every reply has come (R328, R331, R334, R324). A write whose line has come into a
locked window meanwhile is declared failed (R563). -/
def finishTxn (t : Txn) (s : State) : State :=
  let l := t.line
  let s := s.modHome fun h => { h with txns := h.txns.filter fun x => x ≠ t }
  let locked := fun (k : Nat) (s : State) => match engOf s k with
    | some e => lockAnswer e k (homeOf l) s
    | none => s
  match s.hl l with
  | none => match t.kind with
    | .lock k => locked k s
    | _ => s
  | some x0 =>
    let x := { x0 with busy := false }
    let set := fun (y : HLine) (s : State) => s.setHl l (some y)
    let bad := x.poison || x.st = .lost
    let e := match t.req with
      | .engine e => e
      | _ => 0
    let shared := fun (st0 : Nat) => { x with st := .s, sharers := addSharer st0 e, owner := 0 }
    match t.kind with
    | .rds ctx _ =>
      match x.st with
      | .lost => supply t.req l ctx .unc x.ws true t.place (set x s)
      | .i =>
        if ctx.isNone && !x.poison && !lockedWin s (8 * l) then send (.data t.req l .e x.ws 0 t.place) (set { x with st := .e, owner := e } s)
        else supply t.req l ctx .s x.ws x.poison t.place (set (shared 0) s)
      | .s => supply t.req l ctx .s x.ws x.poison t.place (set (shared x.sharers) s)
      | _ => supply t.req l ctx .s x.ws x.poison t.place (set (shared (shBit x.owner)) s)
    | .rdx =>
      if lockedWin s (8 * l) then send (.fail t.req l 2) (set { x with st := if x.st = .lost then .lost else .i, sharers := 0, owner := 0 } s)
      else if bad then send (.data t.req l .rec_ x.ws 255 t.place) (set x s)
      else send (.data t.req l .m x.ws 0 t.place) (set { x with st := .m, owner := e, sharers := 0 } s)
    | .upg =>
      if lockedWin s (8 * l) then send (.fail t.req l 2) (set { x with sharers := shBit e } s)
      else send (.ack t.req l false) (set { x with st := .m, owner := e, sharers := 0 } s)
    | .rdc =>
      let y := if x.st = .e || x.st = .m then { x with st := .s, sharers := shBit x.owner, owner := 0 } else x
      send (.data t.req l .rec_ x.ws (if x.poison then 255 else 0) t.place) (set y s)
    | .rdo =>
      let y := if x.st = .e || x.st = .m then { x with st := .s, sharers := shBit x.owner, owner := 0 } else x
      send (.data t.req l .rec_ x.ws (if x.poison then 255 else 0) t.place) (set y s)
    | .wrl ws =>
      if lockedWin s (8 * l) then send (.fail t.req l 2) (set { x with st := .i, sharers := 0, owner := 0 } s)
      else pairWrite l (send (.ack t.req l false)
        (set { (x.put ws) with st := .i, sharers := 0, owner := 0, poison := false, dirty := true } s))
    | .wrm en ws =>
      if lockedWin s (8 * l) then send (.fail t.req l 2) (set { x with st := if x.st = .lost then .lost else .i, sharers := 0, owner := 0 } s)
      else if bad then send (.fail t.req l 3) (set x s)
      else pairWrite l (send (.ack t.req l false)
        (set { (x.put (mergeLanes en x.ws ws)) with st := .i, sharers := 0, owner := 0, dirty := true } s))
    | .lock k =>
      locked k (set (if x.st = .lost then x else { x with st := .i, sharers := 0, owner := 0 }) s)
    | .evict => dropEntry l (set x s)
    | .inval => set x s

/-- Finishes the transaction of a line when nothing is awaited. One kept open for a merge write stays (R647). -/
def settle (l : Nat) (s : State) : State :=
  match s.home.txns.find? fun t => t.line = l with
  | some t => if t.acks.isEmpty && t.owner.isNone && !t.unc then finishTxn t s else s
  | none => s

/-- Begins a transaction: BUSY, its messages, and its end where it awaits nothing. -/
def startTxn (t : Txn) (ms : List Msg) (s : State) : State :=
  settle t.line (sendAll ms
    ((s.modHl t.line fun x => { x with busy := true }).modHome fun h => { h with txns := h.txns ++ [t] }))

/-! ### Requests of engines (R328) -/

/-- The request that is in flight from an agent for a line and fits, else the one the command brings. -/
def reqMsg (s : State) (ag : Agent) (l : Nat) (dflt : Msg) (fits : ReqKind → Bool) : Msg :=
  (s.home.net.find? fun m => match m with
    | .req a x _ k => a = ag && x = l && fits k
    | _ => false).getD dflt

/-- The tenant for which an agent acts: an engine's TID.TENANT, a mover's bound tenant, else tenant 0. -/
def agTenant (s : State) : Agent → Nat
  | .engine e => (s.e e).tenant
  | .mover c => match (tget Mover.reset s.movers c).cur with
    | some t => t.tenant
    | none => 0
  | _ => 0

/-- A read that found no way: from DRAM, recorded nowhere (R647). -/
def readUncached (ag : Agent) (l : Nat) (ctx : Option Nat) (g : Grant) (s : State) : State :=
  let r := memRead l s
  supply ag l ctx g r.1.1 r.1.2.1 r.1.2.2 r.2

/-- The mover's running transfer has the code-write right of its channel (R69, R391). -/
def moverCode (s : State) (c : Nat) : Bool :=
  match (tget Mover.reset s.movers c).cur with
  | some t => bit (s.cg (rMVBIND c t.ch)) 15
  | none => false

/-- An agent without a cache whose accesses reach the program region (R69): the management processor, and a mover channel with
the code-write right. -/
def codeAgent (s : State) : Agent → Bool
  | .mgmt => true
  | .mover c => moverCode s c
  | _ => false

/-- A read that the home refuses at once: of a line of the control window (R61), or by an agent without a cache of an
unpopulated line or, without the right, of one of the program region (R60, R69). Engines check theirs themselves (R91). -/
def readRefused (s : State) (ag : Agent) (l : Nat) : Bool :=
  inCtl (8 * l) || (match ag with
    | .engine _ => false
    | _ => decide (dramWords s ≤ 8 * l) || (inProgram s (8 * l) && !codeAgent s ag))

/-- The words of a line of the boot SRAM. -/
def sramLine (s : State) (l : Nat) : List Word :=
  (List.range 8).map fun k => tget 0 s.mem.bootSram (8 * l + k - (ctlBase + bootSramBlk))

/-- The watch that the read of an LDR carries is recorded as its read is accepted (R339). -/
def readWatch (ag : Agent) (l : Nat) (k : ReqKind) (s : State) : State :=
  match ag, k with
  | .engine e, .rds _ true => homeWatch e l s
  | _, _ => s

/-- A read: RDS, RDC, RDO. The owner of a line in E or M supplies (FWDS); a poisoned line has none. A fetch from the boot SRAM is
supplied by it (R63, R321; DEDUCED, log entry 68). -/
def readReq (ag : Agent) (l tn : Nat) (k : ReqKind) (ctx : Option Nat) (g : Grant) (m : Msg) (s : State) : State :=
  if k = .rdc && inBootSram (8 * l) then send (.data ag l .rec_ (sramLine s l) 0 0) s
  else if readRefused s ag l then send (.fail ag l 2) s
  else
    let r := obtain_ ag tn l s
    match r.1 with
    | .waiting => putBack m r.2
    | .uncached => readUncached ag l ctx g (readWatch ag l k r.2)
    | .ready place =>
      let own := (r.2.hl l).bind HLine.own
      startTxn { line := l, req := ag, tenant := tn, kind := k, acks := [], owner := own, unc := false, place := place }
        (own.toList.map fun o => .fwds o l) (readWatch ag l k r.2)

/-- RDS (R328): `e` the requesting engine. -/
def execRds (e line : Nat) (s : State) : Host.Outcome State Fault Refusal :=
  onEngine e (decide (line < 2 ^ 32))
    (let g := s.e e
     let m := reqMsg s (.engine e) line (.req (.engine e) line g.tenant (.rds g.rdsCtx false))
       (fun k => match k with
         | .rds .. => true
         | _ => false)
     match m with
     | .req ag l tn (.rds ctx w) => gate ag l m (readReq ag l tn (.rds ctx w) ctx .unc m) s
     | _ => s)

/-- Ownership for a store: from I at once; from S after INV to the sharers; from E or M by FWDX; a poisoned or Lost line
is supplied poisoned (R328). Holders of tentative lines are invalidated (R333). A line of a locked window is not given
(R563). -/
def ownReq (e l tn : Nat) (isUpg : Bool) (m : Msg) (s : State) : State :=
  let ag := Agent.engine e
  if lockedWin s (8 * l) || inCtl (8 * l) then send (.fail ag l 2) s
  else
  let r := obtain_ ag tn l s
  let s := r.2
  match r.1 with
  | .waiting => putBack m s
  | .uncached =>
    let s := tellWatches l (some e) s
    let s := s.modHome fun h => { h with txns := h.txns ++
      [{ line := l, req := ag, tenant := tn, kind := if isUpg then .upg else .rdx, acks := [], owner := none, unc := true,
         place := 2 }] }
    send (.ack ag l true) (invHolders l s)
  | .ready place =>
    match s.hl l with
    | none => s
    | some x =>
      let s := tellWatches l (some e) s
      if x.poison || x.st = .lost then
        startTxn { line := l, req := ag, tenant := tn, kind := .rdx, acks := [], owner := none, unc := false, place := place }
          [] s
      else
        let up := isUpg && x.st = .s && enHas x.sharers (e / 12)
        let es := ((sharerEngs s x).filter fun y => !(up && y = e)) ++ (tHolders s l none).filter (· ≠ e)
        startTxn { line := l, req := ag, tenant := tn, kind := if up then .upg else .rdx, acks := clustersOf es,
                   owner := x.own, unc := false, place := place }
          (es.eraseDups.map (fun y => .inv y l false) ++ x.own.toList.map fun o => .fwdx o l) (clearHolders l none s)

/-- RDX (R328). -/
def execRdx (e line : Nat) (s : State) : Host.Outcome State Fault Refusal :=
  onEngine e (decide (line < 2 ^ 32))
    (let m := reqMsg s (.engine e) line (.req (.engine e) line (s.e e).tenant .rdx) (fun k => k = .rdx)
     match m with
     | .req ag l tn _ => gate ag l m (ownReq e l tn false m) s
     | _ => s)

/-- UPG (R328). -/
def execUpg (e line : Nat) (s : State) : Host.Outcome State Fault Refusal :=
  onEngine e (decide (line < 2 ^ 32))
    (let m := reqMsg s (.engine e) line (.req (.engine e) line (s.e e).tenant .upg) (fun k => k = .upg)
     match m with
     | .req ag l tn _ => gate ag l m (ownReq e l tn true m) s
     | _ => s)

/-- MOD (R328, R330): an owner in E becomes the owner in M; any other is acknowledged at once. -/
def execModI (e line : Nat) (s : State) : Host.Outcome State Fault Refusal :=
  onEngine e (decide (line < 2 ^ 32))
    (gate (.engine e) line (.modN e line) (fun s =>
      let s := match s.hl line with
        | some x =>
          if x.st = .e && x.owner = e then
            clearHolders line none (awaitInv line false ((tHolders s line none).filter (· ≠ e))
              (s.modHl line fun x => { x with st := .m }))
          else s
        | none => s
      send (.ack (.engine e) line false) (tellWatches line (some e) s)) s)

/-- The home awaits a reply of engine e about line l as its owner (R330). -/
def ownerReply (s : State) (e l : Nat) : Bool :=
  ((s.hl l).bind HLine.own) = some e && s.home.txns.any fun t =>
    t.line = l && (t.owner = some e || (t.kind = .evict && t.acks.contains (e / 12)))

/-- A reply to RCL from cluster c: with the last of the cluster, the eviction waits for it no more. -/
def recalled (c l : Nat) (s : State) : State :=
  if invsOut s c l || s.home.net.contains (.iack c l) then s
  else modTxn l (fun t => if t.kind = .evict then { t with acks := t.acks.filter (· ≠ c) } else t) s

/-- The owner's words come home (R328, R329). -/
def homePut (l : Nat) (ws : List Word) (pois : Nat) (s : State) : State :=
  invHolders l (s.modHl l fun x => { (x.put ws) with dirty := true, poison := decide (pois ≠ 0) })

/-- A forward or recall to engine e about line l has crossed its write-back, and its FNONE has still to come (R330). -/
def crossed (s : State) (e l : Nat) : Bool :=
  s.home.net.any fun m => match m with
    | .fwds x y => x = e && y = l
    | .fwdx x y => x = e && y = l
    | .rcl x y => x = e && y = l
    | .fnone x y => x = e && y = l
    | _ => false

/-- A WBK that is the owner's reply to a transaction (R330). Where it has crossed the forward, the last reply is the FNONE (R337). -/
def wbkReply (e l : Nat) (ws : List Word) (pois : Nat) (s : State) : State :=
  let s := modTxn l (fun t => if t.owner = some e then { t with place := 1 } else t)
    (send (.ack (.engine e) l false) (homePut l ws pois s))
  if crossed s e l then s
  else settle l (recalled (e / 12) l (modTxn l (fun t => if t.owner = some e then { t with owner := none } else t) s))

/-- A WBK that is accepted (R328): the owner's line comes home; data of any other, which a WRL has discarded, is dropped. -/
def wbkAccept (e l : Nat) (ws : List Word) (pois : Nat) (s : State) : State :=
  let s := send (.ack (.engine e) l false) s
  if ((s.hl l).bind HLine.own) = some e then
    homePut l ws pois (s.modHl l fun x => { x with st := .i, owner := 0 })
  else s

/-- WBK (R328). A write-back that is not in flight, of no copy, changes nothing. One that is the reply the home awaits is taken
at once (R330); any other passes the gate. -/
def execWbk (e line : Nat) (s : State) : Host.Outcome State Fault Refusal :=
  onEngine e (decide (line < 2 ^ 32))
    (match s.home.net.find? fun m => match m with
        | .wbk a l _ _ => a = e && l = line
        | _ => false with
     | some (.wbk a l ws p) =>
       let m := Msg.wbk a l ws p
       if ownerReply s a l then
         wbkReply a l ws p ((unsend m s).modHome fun h => { h with retry := h.retry.filter fun t => t.msg ≠ m })
       else gate (.engine a) l m (wbkAccept a l ws p) s
     | _ => s)

/-- RDC (R321): supplied without entering the engine. -/
def execRdc (e line : Nat) (s : State) : Host.Outcome State Fault Refusal :=
  onEngine e (decide (line < 2 ^ 32))
    (let m := reqMsg s (.engine e) line (.req (.engine e) line (s.e e).tenant .rdc) (fun k => k = .rdc)
     match m with
     | .req ag l tn _ => gate ag l m (readReq ag l tn .rdc none .rec_ m) s
     | _ => s)

/-! ### Tentative writes (R297, R332, R336, R378) -/

/-- A way for a new tentative line. -/
inductive TRoom where
  | way (w : Nat)
  | full
  | wait

def tentRoom (e t l : Nat) (s : State) : TRoom × State :=
  let ws := usableWays s t l
  let held := (s.home.tents.filter fun x => x.tenant = t && sameSet x.line l).length
  if (!tenSealed s t && decide (s.cf (rTen t 0) 13 16 ≤ held)) || ws.all (wayTent s l) then (.full, s)
  else match roomFor s (.engine e) t l with
    | .way w => (.way w, s)
    | .evict v x =>
      match sharerEngs s x ++ x.own.toList with
      | [] => (.way x.way, dropEntry v s)
      | es => (.wait, startEvict (.engine e) t v es s)
    | _ => (.wait, s)

/-- The committed line is poisoned, as its home finds it. -/
def homePoison (l : Nat) (s : State) : Bool × State :=
  match s.hl l with
  | some _ =>
    let s := hDecode l s
    (match s.hl l with
      | some x => x.poison || x.st = .lost
      | none => false, s)
  | none => let r := memRead l s; (r.1.2.1, r.2)

/-- A WRT is accepted, or declared failed. -/
def wrtAccept (e l k t en : Nat) (ws : List Word) (m : Msg) (s : State) : State :=
  let ag := Agent.engine e
  let p := homePoison l s
  if lockedWin s (8 * l) then send (.fail ag l 2) s
  else if p.1 && en ≠ fullEn then send (.fail ag l 3) p.2
  else if (tentOf p.2 l k).isSome then
    send (.ack ag l false) (modTent l k (fun x =>
      { x.put (mergeWords en x.ws ws) with
          en := Nat.lor x.en en, poison := x.poison && decide (en ≠ fullEn), holder := some e }) (tDecode l k p.2))
  else
    let r := tentRoom e t l p.2
    match r.1 with
    | .full => send (.fail ag l 2) (hstat (homeOf l) 18 26 r.2)
    | .wait => putBack m r.2
    | .way w =>
      send (.ack ag l false) (r.2.modHome fun h =>
        { h with tents := h.tents ++ [{ line := l, ctx := k, tenant := t, ws := mergeWords en zeroLine ws,
                                        chk := rsCheck (mergeWords en zeroLine ws), poison := false, en := en,
                                        holder := some e, lock := false, way := w }] })

/-- WRT (R332). -/
def execWrt (e line : Nat) (s : State) : Host.Outcome State Fault Refusal :=
  onEngine e (decide (line < 2 ^ 32))
    (match s.home.net.find? fun m => match m with
        | .wrt a l _ _ _ _ => a = e && l = line
        | _ => false with
     | some m => match m with
       | .wrt a l k t en ws => gate (.engine a) l m (wrtAccept a l k t en ws m) s
       | _ => s
     | none => s)

/-! ### WATCH (R339, R340) -/

/-- The engine still holds the watch. -/
def watchLive (g : Engine) (l idx : Nat) : Bool :=
  if idx = 0 then (match g.mem.resv with
    | some r => r.gran.lines.contains l
    | none => false)
  else g.mem.watch.any fun w => w.idx = idx && granHas w l

/-- WATCH (R339): `kind` is the watch entry, 0 for the reservation. The context entry of R650 gives way to it. -/
def execWatch (e line kind : Nat) (s : State) : Host.Outcome State Fault Refusal :=
  onEngine e (decide (line < 2 ^ 32 ∧ kind < 5))
    (gate (.engine e) line (.watch e line kind) (fun s =>
      let g := s.e e
      if !watchLive g line kind then s
      else
        let s := s.modHome fun h =>
          { h with watches := if h.watches.contains { e := e, idx := kind, line := line } then h.watches
                     else h.watches ++ [{ e := e, idx := kind, line := line }],
                   cwatches := if kind = 0 then h.cwatches else h.cwatches.filter fun w => !(w.ctx = g.ctx && w.line = line) }
        if kind = 0 then
          s.modE e fun g => g.modMem fun m =>
            { m with resv := m.resv.map fun r => { r with awaited := r.awaited.filter (· ≠ line) } }
        else s) s)

/-! ### The steps of COMMIT (R334) -/

/-- Locks one tentative line of context k for engine e, whose own T copy stays. -/
def lockLine (e k l : Nat) (s : State) : State :=
  let s := modTent l k (fun t => { t with lock := true }) s
  let hs := (tHolders s l (some k)).filter (· ≠ e)
  let s := clearHolders l (some k) s
  let mineT := match (s.e e).l1Any l with
    | some c => c.st = .t
    | none => false
  let sh := match s.hl l with
    | some x => (sharerEngs s x).filter fun y => !(y = e && mineT)
    | none => []
  let own := (s.hl l).bind HLine.own
  let es := sh ++ hs
  startTxn { line := l, req := .engine e, tenant := 0, kind := .lock k, acks := clustersOf es, owner := own, unc := false,
             place := 0 }
    (es.eraseDups.map (fun y => .inv y l true) ++ own.toList.map fun o => .fwdx o l)
    (s.modHl l fun x => { x with lock := true })

/-- LOCK (R334) at home h for the context that engine e commits: every line that is free is locked; the others wait. -/
def execLock (e h : Nat) (s : State) : Host.Outcome State Fault Refusal :=
  onEngine e (decide (h < 12))
    (match (s.e e).run.stall with
     | some x => match x.why with
       | .locks hs =>
         if !hs.contains h then s
         else
           let k := (s.e e).ctx
           let ls := (s.home.tents.filter fun t => t.ctx = k && homeOf t.line = h && !t.lock).map TLine.line
           lockAnswer e k h (ls.foldl (fun s l => if lineHeld s l then s else lockLine e k l s) s)
       | _ => s
     | none => s)

/-- One locked tentative line is published by engine e (R334, R336, R563, R647). One that the home slice finds uncorrectable has
lost its words: the committed line becomes poisoned, and the loss is counted and journaled as R336 has it for a poisoned line
(DESIGN CHOICE, log entry 69). -/
def publishLine (e : Nat) (t0 : TLine) (s : State) : State :=
  let l := t0.line
  let s := hDecode l (tDecode l t0.ctx s)
  let t := (tentOf s l t0.ctx).getD t0
  let lost := fun (s : State) => jEvent 0o411 t.tenant [mkW (homeOf l), mkW l] (hstat (homeOf l) 9 17 s)
  let s := s.modHome fun h => { h with tents := h.tents.filter fun x => !(x.line = l && x.ctx = t.ctx) }
  let drop := fun (s : State) => s.modE e fun g => g.modMem fun m =>
    { m with l1d := m.l1d.filter fun c => !(c.line = l && c.st = .t) }
  let gone := fun (s : State) => tellWatches l (some e) (invHolders l (drop (lost s)))
  if lockedWin s (8 * l) then drop (lost (s.modHl l fun x => { x with lock := false }))
  else if t.poison then
    gone (match s.hl l with
      | none => memRaw l t.ws t.chk s
      | some _ => s.modHl l fun x =>
          { x with ws := t.ws, chk := t.chk, poison := true, dirty := true, lock := false, st := .i, sharers := 0, owner := 0 })
  else match s.hl l with
  | none =>
    let r := memRead l s
    if r.1.2.1 && t.en ≠ fullEn then drop (lost r.2)
    else tellWatches l (some e) (invHolders l (drop (memWrite l (mergeWords t.en r.1.1 t.ws) r.2)))
  | some x =>
    if (x.poison || x.st = .lost) && t.en ≠ fullEn then
      drop (lost (s.modHl l fun x => { x with lock := false }))
    else
      let s := s.modHl l fun x =>
        { (x.put (mergeWords t.en x.ws t.ws)) with
            lock := false, dirty := true, poison := false, st := .s,
            sharers := addSharer (if x.st = .s then x.sharers else 0) e, owner := 0 }
      let s := s.modE e fun g => g.modMem fun m =>
        { m with l1d := m.l1d.map fun c => if c.line = l && c.st = .t then { c with st := .s, pois := 0 } else c }
      tellWatches l (some e) (invHolders l s)

/-- Every locked line of context k at home h is published. -/
def publishHome (e k h : Nat) (s : State) : State :=
  let s := unsend (.publish e k h) s
  (s.home.tents.filter fun t => t.ctx = k && homeOf t.line = h && t.lock).foldl (fun s t => publishLine e t s) s

/-- PUBLISH (R334). It is never NAKed. -/
def execPublish (e h : Nat) (s : State) : Host.Outcome State Fault Refusal :=
  onEngine e (decide (h < 12))
    (match s.home.net.find? fun m => match m with
        | .publish a _ x => a = e && x = h
        | _ => false with
     | some (.publish a k x) => publishHome a k x s
     | _ => s)

/-- DISCARD (R334) of context k at home h. -/
def execDiscard (k h : Nat) (s : State) : Host.Outcome State Fault Refusal :=
  if k < 16384 ∧ h < 12 then .next (homeDiscard k (· = h) s) else .fault .noSuchUnit

/-! ### Agents without caches (R331, R69) -/

def agOk : Agent → Bool
  | .engine e => decide (e < 144)
  | .mover c => decide (c < 12)
  | _ => true

/-- An agent that may write the program region (R69): one of `codeAgent`, or an engine's M-level store. -/
def codeWriter (s : State) (ag : Agent) : Bool :=
  codeAgent s ag || (match ag with
    | .engine e => decide (2 ≤ (s.e e).level)
    | _ => false)

/-- A write that the home refuses at once: a line of the control window, an unpopulated line, or a line of the program
region for an agent without the right, or of a locked window (R60, R61, R69, R563). -/
def writeRefused (s : State) (ag : Agent) (l : Nat) : Bool :=
  decide (dramWords s ≤ 8 * l) || (inProgram s (8 * l) && !codeWriter s ag) || lockedWin s (8 * l)

/-- RDO (R331). -/
def execRdo (ag : Agent) (line : Nat) (s : State) : Host.Outcome State Fault Refusal :=
  if !(agOk ag && decide (line < 2 ^ 32)) then .fault .noSuchUnit
  else .next
    (let m := reqMsg s ag line (.req ag line (agTenant s ag) .rdo) (fun k => k = .rdo)
     match m with
     | .req a l tn _ => gate a l m (readReq a l tn .rdo none .rec_ m) s
     | _ => s)

/-- A write of a line or of lanes of a line whose committed copy is in no way: in DRAM (R647, R48). -/
def writeUncached (ag : Agent) (l : Nat) (k : ReqKind) (s : State) : State :=
  let tell := tellWatches l (match ag with
    | .engine e => some e
    | _ => none)
  if lockedWin s (8 * l) then send (.fail ag l 2) s
  else match k with
  | .wrl ws => pairWrite l (send (.ack ag l false) (invHolders l (tell (memWrite l ws s))))
  | .wrm en ws =>
    let r := memRead l s
    if r.1.2.1 then send (.fail ag l 3) r.2
    else pairWrite l (send (.ack ag l false) (invHolders l (tell (memWrite l (mergeLanes en r.1.1 ws) r.2))))
  | _ => s

/-- A WRL or WRM at the home. -/
def writeReq (ag : Agent) (l tn : Nat) (k : ReqKind) (m : Msg) (s : State) : State :=
  if writeRefused s ag l then send (.fail ag l 2) s
  else
    let isL := match k with
      | .wrl _ => true
      | _ => false
    let r := obtain_ ag tn l s
    let s := r.2
    match r.1 with
    | .waiting => putBack m s
    | .uncached => writeUncached ag l k s
    | .ready place =>
      match s.hl l with
      | none => s
      | some x =>
        let bad := x.poison || x.st = .lost
        let s := if bad && !isL then s else tellWatches l none s
        let es := sharerEngs s x ++ (if isL then x.own.toList else []) ++ (if bad && !isL then [] else tHolders s l none)
        let own := if isL then none else x.own
        startTxn { line := l, req := ag, tenant := tn, kind := k, acks := if bad && !isL then [] else clustersOf es,
                   owner := own, unc := false, place := place }
          (if bad && !isL then [] else es.eraseDups.map (fun y => .inv y l false) ++ own.toList.map fun o => .fwdx o l)
          (if bad && !isL then s else clearHolders l none s)

/-- The merge write of a store that the home keeps its transaction open for (R647). -/
def mergeOpen (e l en : Nat) (ws : List Word) (s : State) : State :=
  writeUncached (.engine e) l (.wrm en ws) (closeTxns (fun t => t.line = l && t.unc && t.req = .engine e) s)

/-- WRL (R331): a full line. -/
def execWrl (ag : Agent) (line : Nat) (ws : List Word) (s : State) : Host.Outcome State Fault Refusal :=
  if !(agOk ag && decide (line < 2 ^ 32 ∧ ws.length = 8)) then .fault .noSuchUnit
  else .next
    (let m := reqMsg s ag line (.req ag line (agTenant s ag) (.wrl ws)) (fun k => match k with
       | .wrl _ => true
       | _ => false)
     match m with
     | .req a l tn k => gate a l m (writeReq a l tn k m) s
     | _ => s)

/-- WRM (R331): lanes enabled in `en`. -/
def execWrm (ag : Agent) (line en : Nat) (ws : List Word) (s : State) : Host.Outcome State Fault Refusal :=
  if !(agOk ag && decide (line < 2 ^ 32 ∧ en < 2 ^ 32 ∧ ws.length = 8)) then .fault .noSuchUnit
  else .next
    (let m := reqMsg s ag line (.req ag line (agTenant s ag) (.wrm en ws)) (fun k => match k with
       | .wrm .. => true
       | _ => false)
     match m with
     | .req (.engine e) l tn (.wrm en ws) =>
       if s.home.txns.any fun t => t.line = l && t.unc && t.req = .engine e then mergeOpen e l en ws (unsend m s)
       else gate (.engine e) l m (writeReq (.engine e) l tn (.wrm en ws) m) s
     | .req a l tn k => gate a l m (writeReq a l tn k m) s
     | _ => s)

/-! ### Replies (R327, R329, R330) -/

/-- IACK (R327) of cluster c. While the cluster has still an INV or RCL for the line to accept, its next IACK counts. -/
def execIack (c line : Nat) (s : State) : Host.Outcome State Fault Refusal :=
  if !(decide (c < 12 ∧ line < 2 ^ 32)) then .fault .noSuchUnit
  else .next
    (if !s.home.net.contains (.iack c line) then s
     else
       let s := unsend (.iack c line) s
       if invsOut s c line then s
       else settle line (modTxn line (fun t => { t with acks := t.acks.filter (· ≠ c) }) s))

/-- FDATA (R329): the home takes the owner's words; the requester is supplied. -/
def execFdata (e line : Nat) (s : State) : Host.Outcome State Fault Refusal :=
  onEngine e (decide (line < 2 ^ 32))
    (match s.home.net.find? fun m => match m with
        | .fdata a l _ _ _ => a = e && l = line
        | _ => false with
     | some (.fdata a l ws p d) =>
       let s := unsend (.fdata a l ws p d) s
       if s.home.txns.any fun t => t.line = l && t.owner = some a then
         let s := if d then homePut l ws p s else s
         settle l (modTxn l (fun t => { t with owner := none, place := 1 }) s)
       else s
     | _ => s)

/-- FNONE (R330): the home supplies its own copy; a write-back that crosses the forward is awaited. -/
def execFnone (e line : Nat) (s : State) : Host.Outcome State Fault Refusal :=
  onEngine e (decide (line < 2 ^ 32))
    (let isWb := fun (m : Msg) => match m with
       | .wbk a l _ _ => a = e && l = line
       | _ => false
     if !s.home.net.contains (.fnone e line) || s.home.net.any isWb || s.home.retry.any (fun t => isWb t.msg) then s
     else
       settle line (recalled (e / 12) line
         (modTxn line (fun t => { t with owner := if t.owner = some e then none else t.owner })
           (unsend (.fnone e line) s))))

/-! ### Retries (R338) -/

/-- The back-off after n NAKs: 16, 32, then 64 cycles of 750 MHz, in sixty-fourths of a nanosecond (rounded up). -/
def backoff (n : Nat) : Nat := ((if n ≤ 1 then 16 else if n = 2 then 32 else 64) * 256 + 2) / 3

/-- NAK (R338): the requester holds its ticket, and its back-off begins. -/
def execNak (ag : Agent) (line : Nat) (s : State) : Host.Outcome State Fault Refusal :=
  if agOk ag && decide (line < 2 ^ 32) then
    .next (if s.home.net.contains (.nak ag line) then
        (unsend (.nak ag line) s).modHome fun h =>
          { h with retry := h.retry.map fun t =>
              if t.line = line && t.req = ag then { t with due := s.net.devTime + backoff t.naks } else t }
      else s)
  else .fault .noSuchUnit

/-- NAK_RETRY (R338): the back-off ends and the request is resent. -/
def execNakRetry (ag : Agent) (line : Nat) (s : State) : Host.Outcome State Fault Refusal :=
  if agOk ag && decide (line < 2 ^ 32) then
    .next (match s.home.retry.find? fun t => t.line = line && t.req = ag && !s.home.net.contains t.msg with
      | some t => if s.home.net.contains (.nak ag line) then s else send t.msg (bringTo t.due s)
      | none => s)
  else .fault .noSuchUnit

end Sys2Proof.Machine
end

