-- ==== Sys2Proof/Machine/Cache.lean ====
section
/-! DEFINITION. The engines' side of coherence (R318 to R320, R329, R330, R347), reservations and watches lost (R122, R301,
R339), and the drain of the store buffer (R200, R201, R297, R298, R345, R346, R354, R355). -/

namespace Sys2Proof.Machine

/-! ### Messages to an engine -/

/-- A message of the home to engine e about line l. -/
def toEngine (e l : Nat) : Msg → Bool
  | .data (.engine x) y _ _ _ _ => x = e && y = l
  | .ack (.engine x) y _ => x = e && y = l
  | .fail (.engine x) y _ => x = e && y = l
  | .inv x y _ => x = e && y = l
  | .fwds x y => x = e && y = l
  | .fwdx x y => x = e && y = l
  | .rcl x y => x = e && y = l
  | _ => false

/-- The first message of the home to engine e about line l: they arrive in the order in which they were sent. -/
def headTo (s : State) (e l : Nat) : Option Msg := s.home.net.find? (toEngine e l)

/-- An invalidation is applied: the copy goes, and with a copy that it holds a reservation on the line's granule (R347, R339). -/
def applyInv (e l : Nat) (s : State) : State :=
  let held := ((s.e e).l1Any l).isSome
  let s := s.modE e fun g => g.l1Drop l
  match (s.e e).mem.resv with
  | some r => if held && r.gran.lines.contains l && !r.gran.near then resvClear e s else s
  | none => s

/-- The IACK of a cluster, once none of its engines has still to accept an INV or RCL for the line (R327). -/
def clusterAck (e l : Nat) (s : State) : State :=
  if invsOut s (e / 12) l || s.home.net.contains (.iack (e / 12) l) then s else send (.iack (e / 12) l) s

/-- INV (R347): queued, or applied at once for the messages that bypass the queue. A full queue holds it back. -/
def execInv (e line : Nat) (s : State) : Host.Outcome State Fault Refusal :=
  onEngine e (decide (line < 2 ^ 32))
    (match headTo s e line with
     | some (.inv x l byp) =>
       if heldBack (s.e e) l || (!byp && decide (16 ≤ (s.e e).mem.invq.length)) then s
       else
         let s := unsend (.inv x l byp) s
         clusterAck e l (if byp then applyInv e l s
           else s.modE e fun g => g.modMem fun m => { m with invq := m.invq ++ [l] })
     | _ => s)

/-- FENCE.L waits for the invalidations that had arrived (R350): one fewer; at none it goes on. -/
def fenceLTick (e : Nat) (s : State) : State :=
  match (s.e e).run.stall with
  | some x => match x.why with
    | .invals n =>
      if n ≤ 1 then
        stallEndsFree e cPSFN 300 (s.modE e fun g => g.modMem fun m => { m with ctlAns := some [] })
      else s.modE e fun g => g.modRun fun r => { r with stall := some { x with why := .invals (n - 1) } }
    | _ => s
  | none => s

/-- INV_APPLY (R347): the oldest queued invalidation is applied. -/
def execInvApply (e : Nat) (s : State) : Host.Outcome State Fault Refusal :=
  onEngine e true
    (match (s.e e).mem.invq with
     | [] => s
     | l :: t => fenceLTick e (applyInv e l (s.modE e fun g => g.modMem fun m => { m with invq := t })))

/-- FWDS (R329): the owner supplies the line and keeps it in S. A copy in S or T answers FNONE and stays (DESIGN CHOICE, log entry
98). -/
def execFwds (e line : Nat) (s : State) : Host.Outcome State Fault Refusal :=
  onEngine e (decide (line < 2 ^ 32))
    (match headTo s e line with
     | some (.fwds _ l) =>
       if heldBack (s.e e) l then s
       else
         let s := unsend (.fwds e l) s
         match (s.e e).l1Any l with
         | some x =>
           if x.st = .e || x.st = .m then
             send (.fdata e l x.ws x.pois (x.st = .m)) (s.modE e fun g => g.l1Set { x with st := .s })
           else send (.fnone e l) s
         | none => send (.fnone e l) s
     | _ => s)

/-- FWDX (R329): the owner supplies the line and gives it up. A copy in S or T answers FNONE and stays (DESIGN CHOICE, log entry
98). -/
def execFwdx (e line : Nat) (s : State) : Host.Outcome State Fault Refusal :=
  onEngine e (decide (line < 2 ^ 32))
    (match headTo s e line with
     | some (.fwdx _ l) =>
       if heldBack (s.e e) l then s
       else
         let s := unsend (.fwdx e l) s
         match (s.e e).l1Any l with
         | some x =>
           if x.st = .e || x.st = .m then send (.fdata e l x.ws x.pois (x.st = .m)) (s.modE e fun g => g.l1Drop l)
           else send (.fnone e l) s
         | none => send (.fnone e l) s
     | _ => s)

/-- RCL (R329): a line in M is written back; another copy goes, with IACK; without a copy, FNONE. -/
def execRcl (e line : Nat) (s : State) : Host.Outcome State Fault Refusal :=
  onEngine e (decide (line < 2 ^ 32))
    (match headTo s e line with
     | some (.rcl _ l) =>
       if heldBack (s.e e) l then s
       else
         let s := unsend (.rcl e l) s
         match (s.e e).l1Any l with
         | some x =>
           let s := s.modE e fun g => g.l1Drop l
           if x.st = .m then send (.wbk e l x.ws x.pois) s else clusterAck e l s
         | none => send (.fnone e l) s
     | _ => s)

/-- RSVL (R339, R301): the reservation is lost, and a watched granule becomes a failure record with cause 02 for its
STC. A match with no watch held is ignored. -/
def execRsvl (e line : Nat) (s : State) : Host.Outcome State Fault Refusal :=
  onEngine e (decide (line < 2 ^ 32))
    (if !s.home.net.contains (.rsvl e line) then s
     else
       let s := unsend (.rsvl e line) s
       let s := match (s.e e).mem.resv with
         | some r => if r.gran.lines.contains line && !r.gran.near then resvClear e s else s
         | none => s
       let hit := (s.e e).mem.watch.filter fun w => granHas w line
       hit.foldl (fun s w =>
         failRec e { cause := 2, seg := w.seg, off := w.off } (unwatch e w.idx (s.modE e fun g => g.modMem fun m =>
           { m with watch := m.watch.filter fun v => v.idx ≠ w.idx }))) s)

/-! ### The store buffer -/

/-- A second need for a line waits until the first request completes (R327), or until the copy has taken its stores (R330): the
instruction is carried out anew, and asks again where it has to. -/
def lookAgain (e l : Nat) (s : State) : State :=
  match (s.e e).run.stall with
  | some x =>
    let mine := match x.why with
      | .line m => m = l
      | .fetch m => m = l
      | .descr m _ _ _ => m = l
      | .stcLine m => m = l && !(match (s.e e).l1Find l with
          | some c => c.st = .e || c.st = .m
          | none => false) && (s.e e).mem.ctlAns.isNone
      | _ => false
    if mine && !reqOut s (.engine e) l then resume e s else s
  | none => s

/-- Entry `idx` of the store buffer, 0 the oldest. -/
def sbAt (s : State) (e idx : Nat) : Option SbEntry := (s.e e).mem.sb[idx]?

def sbMod (e idx : Nat) (f : SbEntry → SbEntry) (s : State) : State :=
  s.modE e fun g => g.modMem fun m => { m with sb := m.sb.modify idx f }

/-- The waits that a freed store-buffer entry ends: a store that needs one (R202), a fence and STEAL once none is left
(R350, R288), a microword that waits for it (R249). They last up to 64 µs where an agent does not answer (`late`) or an older
store has been declared failed (R210, R355). STEAL's wait is counted in PSFN, as that of the fence whose bound it has (DESIGN CHOICE,
log entry 71). The drain step of COMMIT ends with COMMIT_BEGINS. -/
def sbWake (late : Bool) (e : Nat) (s : State) : State :=
  let g := s.e e
  let fence := if late || !g.mem.fails.isEmpty then 64000 else 1600
  match g.run.stall with
  | some x =>
    match x.why with
    | .buffer => stallEndsFree e cPSSB (if late then 64000 else 800) s
    | .fence => if g.mem.sb.isEmpty then stallEndsFree e cPSFN fence s else s
    | .settle => if g.mem.sb.isEmpty then stallEndsFree e cPSFN fence s else s
    | .cond c => if condNow s g c then resume e s else s
    | _ => s
  | none => s

/-- An entry leaves the store buffer; `late` says for want of an answer (R355). -/
def sbGone (late : Bool) (e idx : Nat) (s : State) : State :=
  sbWake late e (s.modE e fun g => g.modMem fun m => { m with sb := m.sb.eraseIdx idx })

/-- An entry that is acknowledged leaves the store buffer. -/
def sbFree (e idx : Nat) (s : State) : State := sbGone false e idx s

/-- A store is declared failed (R242): the record is the engine's, or, for a store of an activation that has yielded, its
CARRY's (R307). -/
def sbFail (e : Nat) (x : SbEntry) (cause : Nat) (s : State) : State :=
  let r : FailRec := { cause := cause, seg := x.seg, off := x.soff }
  if !x.act || engOf s x.ctx = some e then failRec e r s
  else modEntries x.ctx (fun y => { y with carry := { y.carry with fails := y.carry.fails ++ [r] } }) s

/-- An entry is declared failed and freed. -/
def sbFailed (e idx : Nat) (x : SbEntry) (cause : Nat) (s : State) : State :=
  sbGone (decide (cause = 1)) e idx (sbFail e x cause s)

/-- WSMAX of the activation of context k that engine e runs or has yielded (R298). -/
def wsMaxOf (s : State) (e k : Nat) : Nat :=
  match (s.e e).run.entry with
  | some x => recWsMax x.recw
  | none => match s.rel.yielded.find? fun p => p.2.ctx = k with
    | some p => recWsMax p.2.recw
    | none => s.cf (rCtx k 12) 0 11

/-- The lines of the write set of context k, with those of tentative writes in flight or in a retry table. -/
def writeSet (s : State) (k : Nat) : List Nat :=
  ((s.home.tents.filter fun t => t.ctx = k).map TLine.line
    ++ (s.home.net ++ s.home.retry.map Ticket.msg).filterMap fun m => match m with
      | .wrt _ l c _ _ _ => if c = k then some l else none
      | _ => none).eraseDups

/-- The merge write of an entry whose line the home keeps a transaction open for (R647). -/
def drainMerge (e idx : Nat) (x : SbEntry) (s : State) : State :=
  send (.req (.engine e) x.line x.tenant (.wrm (lanesOfWords x.en) x.ws))
    (sbMod e idx (fun y => { y with phase := 1, unc := true, due := s.net.devTime + noAnswerU }) s)

/-- The drain of an entry of data outside activations, or of code (R320, R345). Neither a drain into an L1 line nor an STC's wait
for its line counts as a use of the line for its replacement (R205; DESIGN CHOICE, log entry 72). -/
def drainLine (e idx : Nat) (x : SbEntry) (s : State) : State :=
  let req := fun (k : ReqKind) (s : State) =>
    request (.engine e) x.line x.tenant k (sbMod e idx (fun y => { y with phase := 1, due := s.net.devTime + noAnswerU }) s)
  let other := fun (s : State) => req .rdx (l1Evict e x.line s)
  match (s.e e).l1Any x.line with
  | none => req .rdx s
  | some c =>
    if c.tenant ≠ x.tenant then other s
    else match c.st with
      | .m => lookAgain e x.line
          (sbMod e idx (fun y => { y with phase := 3 }) (s.modE e fun g => g.l1Set (sbIntoLine x c .m)))
      | .e =>
        send (.modN e x.line) (sbMod e idx (fun y => { y with phase := 2, due := s.net.devTime + noAnswerU })
          (s.modE e fun g => g.l1Set (sbIntoLine x c .m)))
      | .s => req .upg s
      | .t => other s

/-- STORE_DRAIN (R346): entry `idx`, 0 the oldest, begins to drain once every instruction that wrote into it has retired (R208). At
most four drain at once, and none while an older entry for its line stands or a request for the line is outstanding. The stores of
an activation that was dropped are let go (R311). -/
def execStoreDrain (e idx : Nat) (s : State) : Host.Outcome State Fault Refusal :=
  onEngine e (decide (idx < 8))
    (match sbAt s e idx with
     | none => s
     | some x =>
       if (s.e e).run.inReset || !(s.e e).retired x then s
       else if x.en = 0 && x.kind ≠ .control then sbFree e idx s
       else
       let q := (s.e e).mem.sb
       let busy := decide (4 ≤ (q.filter fun y => decide (1 ≤ y.phase)).length)
       let older := (q.take idx).any fun y => y.line = x.line && decide ((y.kind = .control) = (x.kind = .control))
       if x.phase ≠ 0 || busy || older then s
       else
         let s' := sbMod e idx (fun y => { y with openE := false }) s
         match x.kind with
         | .control => sbMod e idx (fun y => { y with phase := 1, due := s.net.devTime + noAnswerU }) s'
         | _ =>
           if x.unc then drainMerge e idx x s'
           else if reqOut s (.engine e) x.line then s
           else if x.act && x.kind = .data then
             let ws := writeSet s x.ctx
             if !ws.contains x.line && decide (wsMaxOf s e x.ctx ≤ ws.length) then sbFailed e idx x 2 s'
             else
               send (.wrt e x.line x.ctx x.tenant x.en x.ws)
                 (sbMod e idx (fun y => { y with phase := 1, due := s.net.devTime + noAnswerU }) s')
           else drainLine e idx x s')

/-- STORE_NO_ANSWER (R355): 64 µs have passed without an answer; cause 01. -/
def execStoreNoAnswer (e idx : Nat) (s : State) : Host.Outcome State Fault Refusal :=
  onEngine e (decide (idx < 8))
    (match sbAt s e idx with
     | some x => if x.phase = 1 || x.phase = 2 then sbFailed e idx x 1 (bringTo x.due s) else s
     | none => s)

end Sys2Proof.Machine
end

