-- ==== Sys2Proof/Machine/Coh.lean ====
section
/-! DEFINITION. Memory accesses that a row makes whole, without messages of their own: Welana's (descriptors, images, zeroed
segments), and those of the Septeg engine to areas. DESIGN CHOICE: log entry 29. Each takes effect as an RDO, WRL or WRM does (R331).
Where a request or a commit holds the line, the access stands in the line's order (R349) before that request, and after a commit
whose point has passed. -/

namespace Sys2Proof.Machine

def full32 : Nat := 2 ^ 32 - 1

/-- The stores that must drain into the engine's copy of line l before it leaves (R330, R340) are written into it. -/
def Engine.takeStores (l : Nat) (g : Engine) : Engine :=
  match g.l1Any l with
  | none => g
  | some c =>
    let mine := fun (b : SbEntry) => c.drains b && (g.retired b || b.stc)
    let ds := g.mem.sb.filter mine
    if ds.isEmpty then g
    else (g.l1Set (ds.foldl (fun c b => sbIntoLine b c .m) c)).modMem fun m =>
      { m with sb := m.sb.map fun b => if mine b then { b with openE := false, phase := 3 } else b }

/-- Lines from a word on. -/
def linesOf (a n : Nat) : List Nat :=
  if n = 0 then [] else (List.range ((a + n - 1) / 8 - a / 8 + 1)).map (a / 8 + ·)

/-- What an access to line l finds settled: the stores that its owner holds back for, and the words of the home slice decoded
(R322, R330). -/
def settleLine (l : Nat) (s : State) : State :=
  let s := { s with eng := s.eng.map fun (p : Nat × Engine) => (p.1, p.2.takeStores l) }
  let ks := (s.home.tents.filter fun (t : TLine) => t.line = l && publishing s t).map TLine.ctx
  hDecode l (ks.foldl (fun s k => tDecode l k s) s)

/-- Every engine loses its copy of a line in S, E or M. -/
def dropCopies (l : Nat) (s : State) : State :=
  { s with eng := s.eng.map fun p => (p.1, p.2.modMem fun m => { m with l1d := m.l1d.filter fun c => !(c.line = l && c.st ≠ .t) }) }

/-- A copy of a line is on its way to an engine that the directory has recorded for it. -/
def granting (s : State) (l : Nat) : Bool :=
  s.home.net.any fun m => match m with
    | .data (.engine _) y g _ _ _ => y = l && (g = .s || g = .e || g = .m)
    | _ => false

/-- A committed line enters the home cache where a way is free without an answer of an engine; else DRAM is read alone (R647). -/
def enterQuiet (ag : Agent) (l : Nat) (s : State) : State :=
  match roomFor s ag (agTenant s ag) l with
  | .way w => (enterLine l w s).2
  | .evict v x =>
    if (sharerEngs s x ++ x.own.toList).isEmpty then (enterLine l x.way (dropEntry v s)).2 else (memRead l s).2
  | _ => (memRead l s).2

/-- What an RDO of line l does at its home (R331): the owner of a line in E or M supplies it and keeps it in S. A line that a
request holds is read in its order before that request. -/
def rdoLine (ag : Agent) (l : Nat) (s : State) : State :=
  let s := settleLine l s
  if lineHeld s l || granting s l || inCtl (8 * l) || decide (dramWords s ≤ 8 * l) then s
  else match s.hl l with
  | none => enterQuiet ag l s
  | some x =>
    let s := hTouch l s
    match x.own with
    | none => s
    | some o =>
      match (s.e o).l1Any l with
      | none => s
      | some c =>
        let s := if c.st = .m then homePut l c.ws c.pois s else s
        (s.modE o fun g => g.l1Set { c with st := .s }).modHl l fun x => { x with st := .s, sharers := shBit o, owner := 0 }

/-- RDO of several lines. -/
def rdoLines (ag : Agent) (ls : List Nat) (s : State) : State := ls.foldl (fun s l => rdoLine ag l s) s

/-- A message that carries the committed words of line l, with the lanes of a write merged in. -/
def mergeMsg (l en : Nat) (ws : List Word) (m : Msg) : Msg :=
  let p := fun (q : Nat) => if en = full32 then 0 else q
  match m with
  | .data _ _ (.t _) _ _ _ => m
  | .data a y g v q pl => if y = l then .data a y g (mergeLanes en v ws) (p q) pl else m
  | .wbk e y v q => if y = l then .wbk e y (mergeLanes en v ws) (p q) else m
  | .fdata e y v q d => if y = l then .fdata e y (mergeLanes en v ws) (p q) d else m
  | m => m

/-- The lanes of a write are merged wherever the committed words of line l stand: copies, messages, the home or DRAM, and the
tentative line of a commit whose point has passed. -/
def mergeAll (l en : Nat) (ws : List Word) (s : State) : State :=
  let all := decide (en = full32)
  let s := { s with eng := s.eng.map fun p => (p.1, p.2.modMem fun m =>
    { m with l1d := m.l1d.map fun c =>
        if c.line = l && c.st ≠ .t then { c with ws := mergeLanes en c.ws ws, pois := if all then 0 else c.pois } else c }) }
  let pub := fun (t : TLine) => t.line = l && publishing s t
  let s := s.modHome fun h =>
    { h with net := h.net.map (mergeMsg l en ws), retry := h.retry.map fun t => { t with msg := mergeMsg l en ws t.msg },
             tents := h.tents.map fun t =>
               if pub t then { t.put (mergeLanes en t.ws ws) with poison := t.poison && !all } else t }
  match s.hl l with
  | some x => s.setHl l (some { (x.put (mergeLanes en x.ws ws)) with
      dirty := true, poison := x.poison && !all, st := if x.st = .lost && all then .i else x.st })
  | none => memWrite l (mergeLanes en (memRead l s).1.1 ws) s

/-- Writes the enabled lanes of a line; false for a poisoned line that is not written whole (R48) and for a line of a
locked window (R563). A line of DRAM that is not written whole is read first (R359). -/
def cohMerge (l en : Nat) (ws : List Word) (s : State) : Bool × State :=
  let s := settleLine l s
  let s := if en ≠ full32 && (s.hl l).isNone then (memRead l s).2 else s
  let r := peekLine s l
  if (r.2 && en ≠ full32) || lockedWin s (8 * l) then (false, s)
  else
    let new := mergeLanes en r.1 ws
    (true, pairWrite l (tellWatches l none (invHolders l
      (if lineHeld s l || granting s l then mergeAll l en ws s
       else
         let s := dropCopies l s
         match s.hl l with
         | some x => s.setHl l (some { (x.put new) with
             dirty := true, poison := false, st := .i, sharers := 0, owner := 0 })
         | none => memWrite l new s))))

/-- The lane enables of the words of line l that lie among n words from address a on. -/
def extentEn (a n l : Nat) : Nat :=
  (List.range 8).foldl (fun m k => if decide (a ≤ 8 * l + k ∧ 8 * l + k < a + n) then m + 15 * 16 ^ k else m) 0

/-- Writes words from an address on, line by line. -/
def cohPokes (a : Nat) (ws : List Word) (s : State) : State :=
  (linesOf a ws.length).foldl (fun s l =>
    (cohMerge l (extentEn a ws.length l) ((List.range 8).map fun k => ws.getD (8 * l + k - a) 0) s).2) s

/-- Writes one word. -/
def cohPoke (a : Nat) (w : Word) (s : State) : State := cohPokes a [w] s

/-- Writes zero to n words from an address on: the lines that lie whole in them are cleared everywhere, and are written
again without poison. -/
def cohZero (a n : Nat) (s : State) : State :=
  let inside := fun (l : Nat) => decide (a ≤ 8 * l ∧ 8 * l + 8 ≤ a + n)
  let touched := (listedLines s ++ s.home.lines.map Prod.fst).eraseDups.filter fun l => decide (a < 8 * l + 8 ∧ 8 * l < a + n)
  let s := { s with eng := s.eng.map fun p => (p.1, p.2.modMem fun m => { m with l1d := m.l1d.filter fun c => !(inside c.line) }) }
  touched.foldl (fun s l => (cohMerge l (extentEn a n l) zeroLine s).2) s

/-- Writes octets in lane form from a word address on (R37). -/
def cohOctets (a : Nat) (os : List Octet) (s : State) : State := cohPokes a (lanesOf os) s

end Sys2Proof.Machine
end

