-- ==== Sys2Proof/Machine/Mover.lean ====
section
/-! DEFINITION. Block movers (R390 to R406, R523) and the completion of SEGINV (R97, R400). -/

namespace Sys2Proof.Machine

/-! ### Registers (R390, R391, R394) -/

def chBlk (c n : Nat) : Nat := movBlk c + 0o400 * n
def chSet (c n : Nat) (shadow : Bool) : Nat := chBlk c n + (if shadow then 8 else 0)
def rCHSTAT (c n : Nat) : Nat := chBlk c n + 16
def rCHPROG (c n : Nat) : Nat := chBlk c n + 17
def rMVSTAT (c : Nat) : Nat := movBlk c + 0o10020

def armed (s : State) (c n : Nat) (shadow : Bool) : Bool := s.cb (chSet c n shadow + 4) 0
def setArmed (c n : Nat) (shadow b : Bool) (s : State) : State := s.csf (chSet c n shadow + 4) 0 0 b.toNat
def chBound (s : State) (c n : Nat) : Bool := s.cb (rMVBIND c n) 12

def State.mover (s : State) (c : Nat) : Mover := tget .reset s.movers c
def State.modMover (s : State) (c : Nat) (f : Mover → Mover) : State :=
  { s with movers := tset .reset s.movers c (f (s.mover c)) }

/-- CHSTAT.STATE and SHARM of a channel, and MVSTAT. CUR reads 0 while no transfer runs. -/
def mvSync (c n : Nat) (s : State) : State :=
  let m := s.mover c
  let cur := m.cur.map Transfer.ch
  let st := if cur = some n then 2 else if m.queue.contains n then 1 else 0
  let s := (s.csf (rCHSTAT c n) 0 1 st).csf (rCHSTAT c n) 2 2 (armed s c n true).toNat
  s.cs (rMVSTAT c) (place 0 3 (cur.getD 0) ||| place 4 4 cur.isSome.toNat ||| place 5 9 m.queue.length)

/-- A channel whose working set has become armed enters the ready queue (R397). -/
def chQueue (c n : Nat) (s : State) : State := s.modMover c fun m => { m with queue := m.queue ++ [n] }

/-- The shadow set becomes the working set (R395). -/
def promote (c n : Nat) (s : State) : State :=
  let s := s.css (chSet c n false) (s.cgs (chSet c n true) 4)
  chQueue c n (setArmed c n true false (setArmed c n false true s))

/-- A write of 1 to ARM (R395): a cause of failure, and the state. -/
def armSet (c n : Nat) (shadow : Bool) (s : State) : Option Nat × State :=
  if (s.mover c).retired || armed s c n shadow then (some 2, s)
  else if !shadow then (none, mvSync c n (chQueue c n (setArmed c n false true s)))
  else if armed s c n false then (none, mvSync c n (setArmed c n true true s))
  else (none, mvSync c n (promote c n s))

/-! ### The end of a transfer (R404) -/

/-- The transfer of channel n ends with an error code, and the shadow is promoted; a channel that is being unbound then becomes
free (R392). -/
def endChan (c n err : Nat) (s : State) : State :=
  let gone := (s.mover c).cur.any fun t => t.ch = n && t.unbind
  let s := if gone then s.cs (rMVBIND c n) 0 else s
  let s := (s.csf (rCHSTAT c n) 3 7 err).csf (rCHSTAT c n) 8 23 (s.cf (rCHSTAT c n) 8 23 + 1)
  let s := setArmed c n false false s
  let s := s.modMover c fun m =>
    { m with queue := m.queue.filter (· ≠ n), cur := if m.cur.map Transfer.ch = some n then none else m.cur }
  mvSync c n (if armed s c n true then promote c n s else s)

/-- TRANSFER_END (R404): every outstanding request is answered, and the transfer is done, in error or aborted. An error stands before
the abort's 14 (DESIGN CHOICE, log entry 102). -/
def execTransferEnd (c : Nat) (s : State) : Host.Outcome State Fault Refusal :=
  if 12 ≤ c then .fault .noSuchUnit
  else .next (match (s.mover c).cur with
    | none => s
    | some t =>
      if t.awaitR.isEmpty && t.awaitW.isEmpty && (t.err ≠ 0 || t.aborting || (t.toRead.isEmpty && t.toWrite.isEmpty)) then
        endChan c t.ch (if t.err ≠ 0 then t.err else if t.aborting then 0o14 else 0) s
      else s)

/-! ### Running (R401, R402) -/

/-- Octets or words of the extent before physical octet position g of the destination. -/
def dstBefore (t : Transfer) (g : Nat) : Nat :=
  if t.octets then min t.count (g - (4 * t.dstW + t.dstLane)) else min t.count (g / 4 - t.dstW)

/-- CHPROG (R404): units before the first destination line whose write is not acknowledged. -/
def progSync (c : Nat) (s : State) : State :=
  match (s.mover c).cur with
  | none => s
  | some t =>
    let left := t.awaitW.map Prod.fst ++ t.toWrite
    let p := match left with
      | [] => t.count
      | l :: ls => dstBefore t (32 * ls.foldl min l)
    s.cs (rCHPROG c t.ch) (mkW p)

/-- The lane of the destination extent at octet position g: its source word and lane. -/
def laneSrc (t : Transfer) (g : Nat) : Option (Nat × Nat) :=
  if t.octets then
    let b := 4 * t.dstW + t.dstLane
    if b ≤ g ∧ g < b + t.count then
      let q := t.srcLane + (g - b)
      some (t.srcW + q / 4, q % 4)
    else none
  else if 4 * t.dstW ≤ g ∧ g < 4 * (t.dstW + t.count) then some (t.srcW + (g / 4 - t.dstW), g % 4)
  else none

/-- The lane enables and words of the write to a destination line. -/
def lineWrite (t : Transfer) (l : Nat) : Nat × List Word :=
  let en := (List.range 32).foldl (fun m i => if (laneSrc t (32 * l + i)).isSome then m + 2 ^ i else m) 0
  let ws := (List.range 8).map fun k =>
    (List.range 4).foldl (fun w j => match laneSrc t (32 * l + 4 * k + j) with
      | some (a, q) =>
        let v := lane (tget 0 t.got a) q
        setFld w (9 * j) (9 * j + 8) (if t.octets then v % 256 else v)
      | none => w) (0 : Word)
  (en, ws)

/-- Every source word of a destination line has been read. -/
def lineReady (t : Transfer) (l : Nat) : Bool :=
  let un := t.toRead ++ t.awaitR.map Prod.fst
  (List.range 32).all fun i => match laneSrc t (32 * l + i) with
    | some (a, _) => !un.contains (a / 8)
    | none => true

/-- DSTOP.STOP (R604). -/
def stopAll_ (s : State) : Bool := s.cb (dbgBlk + 1) 0

def modCur (c : Nat) (f : Transfer → Transfer) (s : State) : State := s.modMover c fun m => { m with cur := m.cur.map f }

/-- Issues line requests: at most sixteen are outstanding; none in error, under an abort or while the device is
stopped. -/
def moverGo (c : Nat) : Nat → State → State
  | 0, s => s
  | n + 1, s =>
    match (s.mover c).cur with
    | none => s
    | some t =>
      let ag := Agent.mover c
      let due := s.net.devTime + 64 * usU
      if t.err ≠ 0 || t.aborting || stopAll_ s || decide (16 ≤ t.awaitR.length + t.awaitW.length) then s
      else
        let wr := match t.toWrite with
          | l :: _ => lineReady t l && !reqOut s ag l
          | [] => false
        match t.toWrite, t.toRead with
        | l :: ls, rd =>
          if wr then
            let w := lineWrite t l
            moverGo c n (request ag l t.tenant (if w.1 = full32 then .wrl w.2 else .wrm w.1 w.2)
              (modCur c (fun t => { t with toWrite := ls, awaitW := t.awaitW ++ [(l, due)] }) s))
          else match rd with
            | r :: rs =>
              if reqOut s ag r then s
              else moverGo c n (request ag r t.tenant .rdo
                (modCur c (fun t => { t with toRead := rs, awaitR := t.awaitR ++ [(r, due)] }) s))
            | [] => s
        | [], _ => s

def moverRun (c : Nat) (s : State) : State := moverGo c 64 s

/-- A line arrives at the mover; a poisoned one ends the transfer with error 11 (R405). The answer to a request of a transfer that
has ended is discarded; a request that was held back behind it then goes out (R405 row 13). -/
def moverData (c l : Nat) (ws : List Word) (pois : Nat) (s : State) : State :=
  match (s.mover c).cur with
  | none => s
  | some t =>
    if !(t.awaitR.any fun p => p.1 = l) then moverRun c s
    else
      moverRun c (modCur c (fun t =>
        let t := { t with awaitR := t.awaitR.filter fun p => p.1 ≠ l }
        if pois ≠ 0 then { t with err := if t.err = 0 then 0o11 else t.err }
        else { t with got := (List.zipWith Prod.mk (List.range 8) ws).foldl (fun g p => tset 0 g (8 * l + p.1) p.2) t.got }) s)

/-- A destination write is acknowledged, or a request fails: error 12 for a poisoned line, and 07 for a line that the region
refuses (R405, R69; the latter DEDUCED: log entry 30). -/
def moverAck (c l : Nat) (failed : Option Nat) (s : State) : State :=
  match (s.mover c).cur with
  | none => s
  | some t =>
    if !((t.awaitW ++ t.awaitR).any fun p => p.1 = l) then moverRun c s
    else
      let wrote := t.awaitW.any fun p => p.1 = l
      let s := modCur c (fun t =>
        { t with awaitW := t.awaitW.filter (fun p => p.1 ≠ l),
                 awaitR := t.awaitR.filter (fun p => p.1 ≠ l),
                 toWrite := if wrote && failed.isSome then t.toWrite ++ [l] else t.toWrite,
                 err := match failed with
                   | some k => if t.err ≠ 0 then t.err else if k = 3 then 0o12 else 7
                   | none => t.err }) s
      moverRun c (progSync c s)

/-! ### The start of a transfer (R398, R399) -/

/-- A descriptor as it is read for a transfer; none from a poisoned line (R405, R649). -/
def descRead (s : State) (t i : Nat) : Option (Word × Word) :=
  let a := descAddr s t i
  let r := peekLine s (a / 8)
  if r.2 then none else some (r.1.getD (a % 8) 0, r.1.getD (a % 8 + 1) 0)

/-- The read of a descriptor's line (R331, R399). -/
def descTouch (ag : Agent) (t i : Nat) (s : State) : State := rdoLine ag (descAddr s t i / 8) s

/-- The words that n units at offset o touch: first word and count. -/
def extWords (octets : Bool) (o n : Nat) : Nat × Nat :=
  if octets then (o / 4, (o + n - 1) / 4 - o / 4 + 1) else (o, n)

/-- Checks 6 and 7 for one extent. A line access does not reach the boot SRAM (R61; DEDUCED: log entry 30). -/
def extOk (s : State) (d0 d1 : Word) (lvl w n : Nat) : Option Nat :=
  if descSize d1 < w + n then some 6
  else
    let a := fld d0 1 35 + w
    let ends := fun (x : Nat) => (regionCause s (fld d1 0 2) lvl (bit d0 0) x).isSome || inCtl x
    if (List.range n).any fun k => ends (a + k) then some 7 else none

/-- TRANSFER_START's checks: an error, or the first physical words. -/
def startChecks (s : State) (c n : Nat) (si di sw sn dw dn : Nat) : Sum Nat (Nat × Nat) :=
  let b := s.cg (rMVBIND c n)
  let tn := fld b 0 11
  let lvl := fld b 13 14
  let cw := bit b 15
  match descRead s tn si, descRead s tn di with
  | some (s0, s1), some (d0, d1) =>
    let gone := fun (w : Word) => descAbsent w || fld w 6 17 ≠ tn
    let typ := fun (w : Word) => fld w 0 2 = tyData || (fld w 0 2 = tyCode && cw)
    if gone s1 then .inl 1
    else if gone d1 then .inl 2
    else if lvl < fld s1 18 19 ∨ lvl < fld d1 18 19 then .inl 3
    else if !(typ s1 && typ d1) then .inl 4
    else if !(bit s1 3 && bit d1 4) then .inl 5
    else
      let e := fun (k : Nat) => extOk s s0 s1 lvl sw sn = some k || extOk s d0 d1 lvl dw dn = some k
      let sa := fld s0 1 35 + sw
      let da := fld d0 1 35 + dw
      let lm := fld b 16 33
      if e 6 then .inl 6
      else if e 7 then .inl 7
      else if sa < da + dn ∧ da < sa + sn then .inl 0o10
      else if lm ≠ 0 ∧ lm < max (linesOf sa sn).length (linesOf da dn).length then .inl 0o17
      else .inr (sa, da)
  | _, _ => .inl 0o11

/-- TRANSFER_START (R399): the head of the ready queue is taken. -/
def execTransferStart (c : Nat) (s : State) : Host.Outcome State Fault Refusal :=
  if 12 ≤ c then .fault .noSuchUnit
  else .next (
    let m := s.mover c
    match m.queue with
    | [] => s
    | n :: q =>
      if m.cur.isSome || m.retired || stopAll_ s then s
      else
        let a := chSet c n false
        let si := s.cf a 0 7
        let di := s.cf a 8 15
        let oc := s.cb a 16
        let so := (s.cg (a + 1)).toNat
        let do_ := (s.cg (a + 2)).toNat
        let cnt := s.cf (a + 3) 6 35
        let sw := extWords oc so cnt
        let dw := extWords oc do_ cnt
        let t : Transfer :=
          { ch := n, srcW := 0, dstW := 0, octets := oc, srcLane := if oc then so % 4 else 0,
            dstLane := if oc then do_ % 4 else 0, count := cnt, tenant := s.cf (rMVBIND c n) 0 11, sIdx := si, dIdx := di,
            got := [], toRead := [], awaitR := [], toWrite := [], awaitW := [], err := 0, aborting := false, unbind := false }
        let s := if cnt = 0 then s else descTouch (.mover c) t.tenant di (descTouch (.mover c) t.tenant si s)
        let t := if cnt = 0 then t
          else match startChecks s c n si di sw.1 sw.2 dw.1 dw.2 with
            | .inl e => { t with err := e }
            | .inr (sa, da) => { t with srcW := sa, dstW := da, toRead := linesOf sa sw.2, toWrite := linesOf da dw.2 }
        moverRun c (mvSync c n ((s.modMover c fun m => { m with queue := q, cur := some t }).cs (rCHPROG c n) 0)))

/-! ### Aborts, timeouts and failures (R405, R406, R523) -/

/-- A write of 1 to ABW. -/
def abortChan (c n : Nat) (s : State) : State :=
  if !armed s c n false then s
  else if (s.mover c).cur.map Transfer.ch = some n then modCur c (fun t => { t with aborting := true }) s
  else endChan c n 0o14 s

/-- A write of 1 to CNS. -/
def disarmShadow (c n : Nat) (s : State) : State := mvSync c n (setArmed c n true false s)

/-- MOVER_REQUEST_TIMEOUT (R405): the request that has waited longest is unanswered for 64 µs. Error 13 stands before every other
(DESIGN CHOICE, log entry 102). -/
def execMoverRequestTimeout (c : Nat) (s : State) : Host.Outcome State Fault Refusal :=
  if 12 ≤ c then .fault .noSuchUnit
  else .next (match (s.mover c).cur with
    | none => s
    | some t =>
      match (t.awaitR ++ t.awaitW).map Prod.snd with
      | [] => s
      | d :: ds => endChan c t.ch 0o13 (bringTo (ds.foldl min d) s))

/-- Withdraws the requests of mover c, for the lines that `p` admits, that no home has accepted. -/
def withdraw (c : Nat) (p : Nat → Bool) (s : State) : State :=
  s.modHome fun h =>
    { h with net := h.net.filter fun m => match m with
               | .req a l _ _ => a ≠ .mover c || !p l
               | .nak a l => a ≠ .mover c || !p l
               | _ => true,
             retry := h.retry.filter fun t => t.req ≠ .mover c || !p t.line }

/-- Ends with error `err` the transfer of each channel of mover c that `p` admits in the state it meets: the working sets first,
then those that were promoted as they ended. -/
def endEach (c err : Nat) (p : State → Nat → Bool) (s : State) : State :=
  let once := fun (s : State) => (List.range 16).foldl (fun s n => if armed s c n false && p s n then endChan c n err s else s) s
  once (once s)

/-- Every queued and running transfer of a mover that leaves service ends with error 16, promoted ones too. -/
def retireMover (c : Nat) (s : State) : State :=
  (withdraw c (fun _ => true) (endEach c 0o16 (fun _ _ => true) s)).modMover c fun m =>
    { m with retired := true, queue := [], cur := none }

/-- The set of channel n in mover c names segment i of tenant t. -/
def names (t i c : Nat) (s : State) (n : Nat) : Bool :=
  let a := chSet c n false
  s.cf (rMVBIND c n) 0 11 = t && (s.cf a 0 7 = i || s.cf a 8 15 = i)

/-- SEGINV at one mover: transfers that name the segment, promoted ones too, end with error 15 (R400). The requests of the running
one that no home has accepted are withdrawn, so that no write is accepted after the SEGINV (DEDUCED: log entry 76). -/
def seginvMover (t i c : Nat) (s : State) : State :=
  let lines := match (s.mover c).cur with
    | some x => if names t i c s x.ch then (x.awaitR ++ x.awaitW).map Prod.fst else []
    | none => []
  endEach c 0o15 (names t i c) (withdraw c (fun l => lines.contains l) s)

/-- SEGINV at the movers (R400). -/
def seginvMovers (t i : Nat) (s : State) : State := (List.range 12).foldl (fun s c => seginvMover t i c s) s

/-- SEGINV on the whole device (R97). -/
def seginvDev (t i : Nat) (s : State) : State := seginvMovers t i (seginvAll t i s)

/-- A descriptor is written, and SEGINV follows on every engine and mover (R97, R400, R499). -/
def descWrite (t i : Nat) (d0 d1 : Word) (s : State) : State := seginvDev t i (cohPokes (descAddr s t i) [d0, d1] s)

/-- SEGINV_COMPLETE (R97): every engine and mover has dropped the descriptor. -/
def execSeginvComplete (e stall : Nat) (s : State) : Host.Outcome State Fault Refusal :=
  onEngine e true
    (match (s.e e).run.stall with
     | some x => match x.why with
       | .seginv t i =>
         let s := (seginvDev t i s).modE e fun g => g.modMem fun m => { m with ctlAns := some [] }
         stallEnds e cPSMC 1000 stall s
       | _ => s
     | none => s)

end Sys2Proof.Machine
end

