-- ==== Sys2Proof/Machine/Slots.lean ====
section
/-! DEFINITION. Bindings (R455), the receive slots of contexts (R457), the placement of blocks (R458, R461, R464, R652) and
the absent marking (R459). The Septeg engine's accesses to input and output areas take effect whole: log entry 29. -/

namespace Sys2Proof.Machine

/-! ### Bindings (R455) -/

def rBind (b : Nat) : Nat := ethBlk + 0o710000 + 2 * b

/-- A valid binding. -/
structure Binding where
  b : Nat
  tx : Bool
  ses : Nat
  block : Nat
  len : Nat
  ctx : Nat
  off : Nat
deriving DecidableEq, Repr

/-- The binding that two words hold. -/
def bindingOf (b : Nat) (w0 w1 : Word) : Binding :=
  { b := b, tx := bit w0 1, ses := fld w0 2 15, block := fld w0 16 27, len := fld w0 28 35, ctx := fld w1 0 13,
    off := fld w1 14 27 }

/-- Every valid binding, in ascending number. -/
def bindings (s : State) : List Binding :=
  s.ctl.filterMap fun p =>
    if rBind 0 ≤ p.1 ∧ p.1 < rBind 14336 ∧ (p.1 - rBind 0) % 2 = 0 ∧ bit p.2 0 then
      some (bindingOf ((p.1 - rBind 0) / 2) p.2 (s.cg (p.1 + 1)))
    else none

/-! ### Input and output areas (R652) -/

/-- An area that a record names: first physical word, size and MIRROR. -/
structure Area where
  base : Nat
  size : Nat
  mirror : Bool
deriving DecidableEq, Repr

/-- The area of the descriptor of index i of tenant t; none where the checks of R652 refuse it. -/
def areaOf (s : State) (t i : Nat) : Option Area :=
  match descRead s t i with
  | none => none
  | some (d0, d1) =>
    if descAbsent d1 || fld d1 6 17 ≠ t || fld d1 0 2 ≠ tyData then none
    else some { base := fld d0 1 35, size := descSize d1, mirror := bit d0 0 }

/-- n words at offset o lie in the segment, in the regions of R63, and in the primary area where they must. -/
def Area.has (s : State) (a : Area) (o n : Nat) : Bool :=
  decide (o + n ≤ a.size) && (List.range n).all fun k => (regionCause s tyData 0 a.mirror (a.base + o + k)).isNone

def ctxTenant (s : State) (k : Nat) : Nat := s.cf (rCtx k 0) 0 11

/-- The input area of a context. -/
def inArea (s : State) (k : Nat) : Option Area := areaOf s (ctxTenant s k) (s.cf (rCtx k 10) 0 7)
def frLen (s : State) (k : Nat) : Nat := s.cf (rCtx k 10) 8 23

/-- PER and PH of a record are in the range of R270. -/
def perOk (s : State) (k : Nat) : Bool :=
  let p := (s.cg (rCtx k 2)).toNat
  decide (5 ≤ p ∧ p ≤ 24000000 ∧ (s.cg (rCtx k 3)).toNat < p)

/-- The window of an instant (R279); it is below zero before the first boundary. -/
def windowOf (s : State) (k t : Nat) : Int :=
  ((t : Int) - ((s.cg (rCtx k 3)).toNat * tickU : Nat)) / (((s.cg (rCtx k 2)).toNat * tickU : Nat) : Int)

/-- Boundary n in ticks of 25 µs. -/
def tickOf (s : State) (k : Nat) (n : Int) : Int := n * ((s.cg (rCtx k 2)).toNat : Int) + ((s.cg (rCtx k 3)).toNat : Int)

/-- Some line of n words from physical word a on is poisoned. -/
def poisonedIn (s : State) (a n : Nat) : Bool := (linesOf a n).any fun l => (peekLine s l).2

/-! ### Placement (R458, R280) -/

/-- A block is served at a binding, but of a window whose opening boundary has not been marked: it waits in the engine and is
placed after the marking (R459, R281). -/
def blockWaits (s : State) (x : Binding) (hi lo : Word) (arr : Nat) (y : Block) : Bool :=
  let m := windowOf s x.ctx (ofTime hi lo)
  (y.nodata || decide (x.len = y.ws.length)) && decide (ctxState s x.ctx ≠ 0) && perOk s x.ctx
    && decide ((s.rel.tick : Int) ≤ tickOf s x.ctx (m - 1)) && decide (m ≤ windowOf s x.ctx arr + 1)

/-- The lines of n words from address p on that a write of those words does not write whole. -/
def partLines (p n : Nat) : List Nat := (linesOf p n).filter fun l => !decide (p ≤ 8 * l ∧ 8 * l + 8 ≤ p + n)

/-- One block at one receive binding; `hi`, `lo` its sample stamp, `arr` its arrival stamp. -/
def placeAt (x : Binding) (hi lo : Word) (arr : Nat) (y : Block) (s : State) : State :=
  if !y.nodata && x.len ≠ y.ws.length then sgCount 7 s
  else if ctxState s x.ctx = 0 || !perOk s x.ctx then sgCount 15 s
  else
    let s := descTouch .septeg (ctxTenant s x.ctx) (s.cf (rCtx x.ctx 10) 0 7) s
    let m := windowOf s x.ctx (ofTime hi lo)
    let fin := tickOf s x.ctx (m + 1)
    let slot := 8 * frLen s x.ctx * (m % 3).toNat + x.off
    match inArea s x.ctx with
    | none => sgCount 15 s
    | some a =>
      if !a.has s slot (x.len + 3) then sgCount 15 s
      else if fin * (tickU : Int) ≤ arr ∨ fin < (s.rel.tick : Int) then sgCount 8 s
      else if windowOf s x.ctx arr + 1 < m then sgCount 9 s
      else
        let p := a.base + slot
        let st := peek s p
        let stands := bit st 0 || decide (dbl (peek s (p + 1)) (peek s (p + 2)) ≤ dbl hi lo)
        let n := if stands && !y.nodata then x.len + 3 else 3
        -- the status and stamp words are read; a data line that is written whole loses its poison (R331)
        if poisonedIn s p 3 || (partLines p n).any fun l => (peekLine s l).2 then sgCount 15 s
        else
          let upd := satInc 255 (fld st 2 9)
          if stands then
            let s := cohPokes p ([place 1 1 y.nodata.toNat ||| place 2 9 upd, hi, lo] ++ if y.nodata then [] else y.ws) s
            sgCountN 13 (if y.nodata then 0 else y.ws.length) s
          else cohPokes p [setFld (setFld st 0 0 0) 2 9 upd] s

/-- A block of a session at one receive binding: placed, or held until its frame has been marked (R459). -/
def placeOrHold (x : Binding) (hi lo : Word) (arr : Nat) (y : Block) (s : State) : State :=
  if blockWaits s x hi lo arr y then
    { s with net := { s.net with held := s.net.held ++ [{ b := x.b, ses := x.ses, hi := hi, lo := lo, arr := arr, block := y }] } }
  else placeAt x hi lo arr y s

/-- A block of a session at every receive binding that names it. -/
def placeBlock (ses : Nat) (hi lo : Word) (arr : Nat) (y : Block) (s : State) : State :=
  match (bindings s).filter fun x => !x.tx && x.ses = ses && x.block = y.block with
  | [] => sgCount 10 s
  | xs => xs.foldl (fun s x => placeOrHold x hi lo arr y s) s

/-- The block that waits for a binding which still names it. -/
def heldFor (s : State) (h : HeldBlock) : Option Binding :=
  (bindings s).find? fun x => !x.tx && x.b = h.b && x.ses = h.ses && x.block = h.block.block

/-- The blocks whose frames have been marked are placed, in order of arrival (R459, R280). -/
def placeHeld (s : State) : State :=
  let hs := s.net.held
  hs.foldl (fun s h => match heldFor s h with
    | some x => placeOrHold x h.hi h.lo h.arr h.block s
    | none => s) { s with net := { s.net with held := [] } }

/-! ### The absent marking (R459) -/

/-- The status words of the receive slots of a context in frame f, as word offsets of its input area. -/
def statusWords (s : State) (k f : Nat) : List Nat :=
  ((bindings s).filter fun x => !x.tx && x.ctx = k).map fun x => 8 * frLen s k * f + x.off

/-- Marks the slots of one line: word by word, or whole where it is poisoned and lies in the frame. -/
def markLine (a : Area) (frame size : Nat) (offs : List Nat) (l : Nat) (s : State) : State :=
  let mine := offs.filter fun o => (a.base + o) / 8 = l
  let mark := bitAt 0 true
  if (peekLine s l).2 then
    if a.base + frame ≤ 8 * l ∧ 8 * l + 8 ≤ a.base + frame + size then
      (cohMerge l full32 ((List.range 8).map fun j => if mine.any fun o => a.base + o = 8 * l + j then mark else 0) s).2
    else s
  else mine.foldl (fun s o => cohPoke (a.base + o) mark s) s

/-- The marking of frame f of context k. -/
def markFrame (k f : Nat) (s : State) : State :=
  match inArea s k with
  | none => s
  | some a =>
    let size := 8 * frLen s k
    let offs := (statusWords s k f).filter fun o => a.has s o 1
    let ls := (offs.map fun o => (a.base + o) / 8).eraseDups
    ls.foldl (fun s l => markLine a (size * f) size offs l s) s

/-- The contexts that have receive bindings and a boundary at a tick, each with the number of that boundary. -/
def boundaryCtxs (s : State) (tick : Nat) : List (Nat × Nat) :=
  (((bindings s).filter fun x => !x.tx).map Binding.ctx).eraseDups.filterMap fun k =>
    let p := (s.cg (rCtx k 2)).toNat
    let h := (s.cg (rCtx k 3)).toNat
    if ctxState s k ≠ 0 && perOk s k && decide (h ≤ tick) && (tick - h) % p = 0 then some (k, (tick - h) / p) else none

/-- The marking at a tick. -/
def markTick (tick : Nat) (s : State) : State :=
  (boundaryCtxs s tick).foldl (fun s p => markFrame p.1 ((p.2 + 1) % 3) s) s

end Sys2Proof.Machine
end

