-- ==== Sys2Proof/Machine/Release.lean ====
section
/-! DEFINITION. The release unit: staging, the release event, placement, overflow lists and deadlines (R273 to R277, R281, R284,
R310 to R312, R540, R601, R604). -/

namespace Sys2Proof.Machine

/-! ### Refusal of a record (R274) -/

/-- The record of a context is refused: RUSTAT, a notice (R486), and the context becomes dormant, at once or by DIS. -/
def refuseRec (k : Nat) (s : State) : State :=
  let s := notice (ctxTenant s k) 3 k ((s.csf rRUSTAT 0 0 1).csf rRUSTAT 1 14 k)
  if ctxLive s k || ctxStaged s k then s.csf (rCtx k 0) 22 22 1 else setCtxState k 1 s

/-- DIS with nothing live or staged makes the context dormant at once (R270). -/
def disSync (k : Nat) (s : State) : State :=
  if ctxDis s k && !ctxLive s k && !ctxStaged s k then (setCtxState k 1 s).csf (rCtx k 0) 22 22 0 else s

/-- A boundary that the halt of an activation under PFRZ puts off (R601). -/
def heldOff (s : State) (k t : Nat) : Bool :=
  match engOf s k with
  | some e => (s.e e).run.dlHeld.isSome || (match (s.e e).run.entry with
      | some x => decide (t < x.deadline)
      | none => false)
  | none => false

/-! ### Staging (R273 to R275) -/

/-- The first boundary whose staging interval has not begun. -/
def firstBoundary (s : State) (k : Nat) : Nat :=
  let p := (s.cg (rCtx k 2)).toNat * tickU
  let h := (s.cg (rCtx k 3)).toNat * tickU
  (s.net.devTime + 2 * tickU - h) / p + if s.net.devTime + 2 * tickU < h then 0 else 1

/-- BOUNDARY_STAGING (R273) of the next boundary of context k. -/
def execBoundaryStaging (k : Nat) (s : State) : Host.Outcome State Fault Refusal :=
  if 16384 ≤ k then .fault .noSuchUnit
  else .next (
    if !s.cb rRUCTL 0 || s.rel.stopped || !perOk s k then s
    else
      let ws := ctxWords s k
      let n := ctxNext s k
      let t := boundary ws n
      if t < s.net.devTime + tickU then s.cs2 (rCtx k 13) (firstBoundary s k)
      else
        let s := (bringTo (t - 2 * tickU) s).cs2 (rCtx k 13) (n + 1)
        if ctxState s k < 2 || ctxDis s k || heldOff s k t then s
        else if !recOk ws then refuseRec k s
        else s.modRel fun r => { r with staged := r.staged ++ [freshEntry k n ws] })

/-! ### Deadlines (R310, R311) -/

/-- A drop of an activation that was not placed: counted, with its output blocks announced; the record's state changes only
where no other activation of the context is live. -/
def dropUnplaced (x : Entry) (s : State) : State :=
  if ctxLive s x.ctx then
    let s := s.cs (rCtx x.ctx 28) (s.cg (rCtx x.ctx 28) + 1)
    outNote x true s
  else dropCount x s

/-- An activation that waits in a deque, an overflow list or for its yielding engine. -/
def queuedEntry (s : State) (k : Nat) : Option Entry :=
  ((s.rel.deques ++ s.rel.overflow).flatMap Prod.snd ++ s.rel.yielded.map Prod.snd).find? fun x => x.ctx = k

def unqueue (k : Nat) (s : State) : State :=
  let f := fun (l : List Entry) => l.filter fun x => x.ctx ≠ k
  let g := fun (t : Tbl (List Entry)) => (t.map fun p => (p.1, f p.2)).filter fun p => !p.2.isEmpty
  s.modRel fun r => { r with deques := g r.deques, overflow := g r.overflow, yielded := r.yielded.filter fun p => p.2.ctx ≠ k }

/-- The deadline abort on engine e: at once below M, else at the first boundary below M (R236); a halted engine stays halted
at vector 03 (R601). -/
def abortRun (e : Nat) (s : State) : State :=
  let g := s.e e
  if g.run.dlHeld.isSome || !g.act then s
  else match g.run.cphase with
  | .locking _ => s
  | _ =>
    if 2 ≤ g.level then s.modE e fun g => g.modPipe fun p => { p with dlPend := true }
    else
      let s := abortEngine e s
      grantRelease e 9 (match (s.e e).pipe.exc with
        | some x => if g.run.halted then recognise e x s else s
        | none => s)

/-- What the deadline of the live activation of context k does, where it has one, at instant t or before. -/
def deadlineAct (k t : Nat) (s : State) : State :=
  match engOf s k with
  | some e =>
    match (s.e e).run.entry with
    | some x => if x.deadline ≤ t then abortRun e s else s
    | none => s
  | none =>
    match queuedEntry s k with
    | some x => if x.deadline ≤ t then dropCount x (discardCtx k (unqueue k s)) else s
    | none => s

/-- An activation that waits for an earlier COMMIT is not placed after its deadline. -/
def deadlineWaiting (t : Nat) (s : State) : State :=
  let late := s.rel.waiting.filter fun x => decide (x.deadline ≤ t)
  late.foldl (fun s x => dropUnplaced x s)
    (s.modRel fun r => { r with waiting := r.waiting.filter fun x => decide (t < x.deadline) })

/-- The contexts with an activation that runs or waits. -/
def liveCtxs (s : State) : List Nat :=
  (s.eng.filterMap (fun p => p.2.run.entry.map Entry.ctx)
    ++ ((s.rel.deques ++ s.rel.overflow).flatMap Prod.snd ++ s.rel.yielded.map Prod.snd).map Entry.ctx).eraseDups

/-- Every deadline up to instant t. -/
def deadlines (t : Nat) (s : State) : State := deadlineWaiting t ((liveCtxs s).foldl (fun s k => deadlineAct k t s) s)

/-- An activation whose deadline falls before its release event. -/
def earlyStaged (k : Nat) (x : Entry) : Bool := x.ctx = k && decide (x.deadline < x.rel + 500 * 64)

/-- The deadlines of context k on which the release unit acts (R310): of its running activation, unless its COMMIT has begun, of a
queued one, of those that wait for an earlier COMMIT, and of a staged one whose deadline falls before its release event. -/
def actingDeadlines (s : State) (k : Nat) : List Nat :=
  let run := match engOf s k with
    | some e =>
      let g := s.e e
      let begun := match g.run.cphase with
        | .locking _ => true
        | _ => false
      if g.run.dlHeld.isSome || begun then [] else (g.run.entry.map Entry.deadline).toList
    | none => ((queuedEntry s k).map Entry.deadline).toList
  run ++ (s.rel.waiting.filter fun x => x.ctx = k).map Entry.deadline
    ++ (s.rel.staged.filter (earlyStaged k)).map Entry.deadline

/-- DEADLINE_REACHED (R310) for context k: the first of its deadlines is reached. A standby counts nothing (R540). -/
def execDeadlineReached (k : Nat) (s : State) : Host.Outcome State Fault Refusal :=
  if 16384 ≤ k then .fault .noSuchUnit
  else .next (match actingDeadlines s k with
    | [] => s
    | d :: ds =>
      let d := ds.foldl min d
      let late := fun (x : Entry) => earlyStaged k x && decide (x.deadline ≤ d)
      let s := deadlineWaiting d (deadlineAct k d (bringTo d s))
      (s.rel.staged.filter late).foldl (fun s x => if isStandby s then disSync k s else dropUnplaced x s)
        (s.modRel fun r => { r with staged := r.staged.filter fun x => !late x }))

/-! ### The release event (R276, R277) -/

/-- One activation is released: on a standby it is not placed (R540), nor from a switch time on (R549); while an earlier activation of the context has not
returned it waits. -/
def releaseOne (x : Entry) (s : State) : State :=
  let switching := match s.wel.swAt with
    | some t => decide (t ≤ x.rel)
    | none => false
  if isStandby s || switching then disSync x.ctx s
  else if heldOff s x.ctx x.rel then s
  else if ctxLive s x.ctx then s.modRel fun r => { r with waiting := r.waiting ++ [x] }
  else placeEntry (recHome x.recw) x (setCtxState x.ctx 3 s)

/-- RELEASE_EVENT (R276) at a tick of 25 µs: deadlines, frames, then the release of every boundary staged for it. -/
def execReleaseEvent (tick : Nat) (s : State) : Host.Outcome State Fault Refusal :=
  .next (
    let t := tick * tickU
    if s.rel.stopped || decide (tick < s.rel.tick) || s.rel.staged.any (fun x => decide (x.rel < t)) then s
    else
      let s := markTick tick (deadlines t (bringTo t s))
      let now := s.rel.staged.filter fun x => x.rel = t
      let s := placeHeld (s.modRel fun r => { r with staged := r.staged.filter (fun x => x.rel ≠ t), tick := tick + 1 })
      now.foldl (fun s x => releaseOne x s) s)

/-- OVERFLOW_MOVE (R284). -/
def execOverflowMove (e : Nat) (s : State) : Host.Outcome State Fault Refusal :=
  onEngine e true
    (match s.overflow e with
     | x :: t => if (s.deque e).length < 64 then
         workSet (e / 12) ((s.setOverflow e t).setDeque e (entIns x (s.deque e)))
       else s
     | [] => s)

end Sys2Proof.Machine
end

