-- ==== Sys2Proof/Machine/Gates.lean ====
section
/-! DEFINITION. Gate control lists of ports and stream gates (R423 to R425, R430, R646, R651), and steps and rates of device
time (R435, R437, R646). -/

namespace Sys2Proof.Machine

/-! ### Where a gate lies -/

/-- The control word of a stream gate or of a port's gate; the cycle word and the base double follow it. -/
def rGctl (stream : Bool) (i : Nat) : Nat := if stream then ethBlk + 0o70000 + 16 * i else portBlk i + 0o10

/-- First word of a gate list: a stream gate has one list of 12 entries. -/
def rGlist (stream : Bool) (i list : Nat) : Nat :=
  if stream then rGctl true i + 4 else portBlk i + 0o1000 + 0o400 * list

/-- Entries that a list can hold. -/
def glMax (stream : Bool) : Nat := if stream then 12 else 256

def gateNumOk (stream : Bool) (i : Nat) : Bool := if stream then decide (i < 64) else decide (i < 4)

def gateRun (s : State) (stream : Bool) (i : Nat) : Option GateRun :=
  if stream then tget none s.net.sgates i else (s.port i).gate

def setGateRun (stream : Bool) (i : Nat) (g : Option GateRun) (s : State) : State :=
  if stream then s.modNet fun n => { n with sgates := tset none n.sgates i g }
  else s.modPort i fun p => { p with gate := g }

def gateChg (s : State) (stream : Bool) (i : Nat) : Option Nat :=
  if stream then tget none s.net.sgChg i else (s.port i).chgAt

def setGateChg (stream : Bool) (i : Nat) (t : Option Nat) (s : State) : State :=
  if stream then s.modNet fun n => { n with sgChg := tset none n.sgChg i t }
  else s.modPort i fun p => { p with chgAt := t }

/-! ### The entry that an instant selects (R425, R646) -/

/-- One nanosecond in the units of device time. -/
def nsU : Nat := 64

/-- INTERVAL of entry j of a list in operation. -/
def gInterval (s : State) (stream : Bool) (i : Nat) (g : GateRun) (j : Nat) : Nat :=
  s.cf (rGlist stream i g.list + j) 8 35 * nsU

/-- Where an instant lies in the cycle; also before the base time. -/
def gPos (g : GateRun) (t : Nat) : Nat := (((t : Int) - (g.base : Int)) % (g.cycle : Int)).toNat

/-- The entry in force `pos` into the cycle, entry j beginning at `at_`, n entries left; and where it ends. -/
def gFind (iv : Nat → Nat) (cycle pos : Nat) : Nat → Nat → Nat → Nat × Nat
  | j, _, 0 => (j, cycle)
  | j, at_, n + 1 =>
    let fin := if n = 0 then cycle else min cycle (at_ + iv j)
    if n = 0 ∨ pos < fin then (j, fin) else gFind iv cycle pos (j + 1) fin n

/-- The first instant BASE + m × CYCLE that lies at or after t. -/
def firstChange (base cycle t : Nat) : Nat :=
  if t ≤ base then base else base + (t - base + cycle - 1) / cycle * cycle

/-- Where an instant lies in the cycle, and how long that cycle is: a list that began at a step runs from there to its first restart
(R425, R646). -/
def gPhase (g : GateRun) (t : Nat) : Nat × Nat :=
  match g.stepAt with
  | none => (gPos g t, g.cycle)
  | some b =>
    let fin := b + (g.cycle - gPos g b)
    if b ≤ t ∧ t < fin then (t - b, fin - b) else (gPos g t, g.cycle)

/-- The entry at instant t, and the instant at which it ends. -/
def gAt (s : State) (stream : Bool) (i : Nat) (g : GateRun) (t : Nat) : Nat × Nat :=
  let ph := gPhase g t
  let r := gFind (gInterval s stream i g) ph.2 ph.1 0 0 g.len
  (r.1, t + (r.2 - ph.1))

/-- GATES of a port at present: every gate is open while no list is in operation (R421, R651). -/
def portGates (s : State) (p : Nat) : Nat :=
  match (s.port p).gate with
  | some g => s.cf (rGlist false p g.list + g.idx) 0 7
  | none => 255

def classOpen (s : State) (p k : Nat) : Bool := decide (portGates s p / 2 ^ (7 - k) % 2 = 1)

/-- A stream gate is open: its entry says so, or no list is in operation (R651). -/
def streamOpen (s : State) (i : Nat) : Bool :=
  match gateRun s true i with
  | some g => s.cb (rGlist true i 0 + g.idx) 0
  | none => true

/-- GATE_ENTRY_ADVANCE (R425): the list goes on to the entry that device time selects; where it is there already, the
instant of the next entry comes. -/
def execGateEntryAdvance (stream : Bool) (i : Nat) (s : State) : Host.Outcome State Fault Refusal :=
  if !gateNumOk stream i then .fault .noSuchUnit
  else .next (match gateRun s stream i with
    | none => s
    | some g =>
      let r := gAt s stream i g s.net.devTime
      if r.1 ≠ g.idx then setGateRun stream i (some { g with idx := r.1 }) s
      else
        let s := bringTo r.2 s
        setGateRun stream i (some { g with idx := (gAt s stream i g r.2).1 }) s)

/-! ### The change of a list (R424, R651) -/

/-- The list that an administrative change brings into operation: the other one of a port, at its entry 0. -/
def changeList (stream : Bool) (i : Nat) (s : State) : Nat := if stream then 0 else 1 - s.cf (rGctl stream i) 1 1

def changeRun (stream : Bool) (i : Nat) (s : State) : Option GateRun :=
  let c := rGctl stream i
  if s.cb c 0 then
    some { base := ofTime (s.cg (c + 2)) (s.cg (c + 3)), cycle := s.cf (c + 1) 6 35 * nsU, len := s.cf c 4 12,
           list := changeList stream i s, idx := 0, stepAt := none }
  else none

/-- At the change time the administrative list begins at its entry 0. -/
def takeChange (stream : Bool) (i : Nat) (s : State) : State :=
  let c := rGctl stream i
  setGateChg stream i none (setGateRun stream i (changeRun stream i s) ((s.csf c 1 1 (changeList stream i s)).csf c 2 2 0))

/-- GATE_CHANGE_TIME (R424). -/
def execGateChangeTime (stream : Bool) (i : Nat) (s : State) : Host.Outcome State Fault Refusal :=
  if !gateNumOk stream i then .fault .noSuchUnit
  else .next (match gateChg s stream i with
    | some t => takeChange stream i (bringTo t s)
    | none => s)

/-- CYCLE and the length are in range. -/
def chgOk (s : State) (stream : Bool) (i len : Nat) : Bool :=
  let cy := s.cf (rGctl stream i + 1) 6 35
  decide (1 ≤ len ∧ len ≤ glMax stream ∧ 25000 ≤ cy ∧ cy ≤ 999999999)

/-- A write of the gate control word (R423, R424, R651): a cause of failure, and the state. While PEND is 1, a write that leaves ALEN as
it is is no write to ALEN (DESIGN CHOICE, log entry 103). -/
def gctlWrite (stream : Bool) (i : Nat) (w : Word) (s : State) : Option Nat × State :=
  let c := rGctl stream i
  let pend := s.cb c 2
  let len := fld w 4 12
  if pend && (bit w 3 || decide (len ≠ s.cf c 4 12)) then (some 2, s)
  else if bit w 3 && !chgOk s stream i len then (some 2, s)
  else
    let s := (s.csf c 0 0 (fld w 0 0)).csf c 4 12 len
    let s := if bit w 0 then s else setGateRun stream i none s
    if bit w 3 then
      let t := firstChange (ofTime (s.cg (c + 2)) (s.cg (c + 3))) (s.cf (c + 1) 6 35 * nsU) (s.net.devTime + 1000 * usU)
      (none, setGateChg stream i (some t) (s.csf c 2 2 1))
    else (none, s)

/-- A write of the cycle or base words is refused while a change is pending (R424). -/
def gateParamOk (s : State) (stream : Bool) (i : Nat) : Bool := !s.cb (rGctl stream i) 2

/-- A write of entry j of list `list` is admitted (R423, R424, R651). -/
def gateEntryOk (s : State) (stream : Bool) (i list : Nat) (w : Word) : Bool :=
  decide (100 ≤ fld w 8 35)
    && (match gateRun s stream i with
      | some g => decide (g.list ≠ list)
      | none => true)
    && !(s.cb (rGctl stream i) 2 && (stream || decide (list ≠ s.cf (rGctl stream i) 1 1)))

/-! ### Device time (R435, R437, R646) -/

def rDTRATE : Nat := ethBlk + 0o40014
def rDTSTAT : Nat := ethBlk + 0o40015

/-- Every gate of the device. -/
def allGates : List (Bool × Nat) := (List.range 4).map (false, ·) ++ (List.range 64).map (true, ·)

/-- What a step of device time does to one gate: a list whose change time it reaches or passes begins at its entry 0 there; a list in
operation goes on from the entry that the new device time selects. -/
def stepGate (old : Nat) (p : Bool × Nat) (s : State) : State :=
  let t := s.net.devTime
  let reached := match gateChg s p.1 p.2 with
    | some c => decide (old < t ∧ c ≤ t)
    | none => false
  let s := if reached then takeChange p.1 p.2 s else s
  match gateRun s p.1 p.2 with
  | some g =>
    let g := { g with stepAt := if reached then some t else none }
    setGateRun p.1 p.2 (some { g with idx := (gAt s p.1 p.2 g t).1 }) s
  | none => s

/-- What a step of device time does to the frames of a port whose transmission has begun, on the line or preempted: the end on the line
moves with the step, and they complete under the gate state from before (R646). -/
def stepLine (old t p : Nat) (s : State) : State :=
  let move := fun x => if x ≤ old then t - (old - x) else t + (x - old)
  let open_ := fun (f : Option TxFrame) => match f with
    | some f => classOpen s p f.cls
    | none => false
  let line := open_ (s.port p).onLine
  let held := open_ (s.port p).preempted
  s.modPort p fun x =>
    let x := { x with preKept := x.preKept || held }
    if x.onLine.isNone then x
    else { x with lineEnd := move x.lineEnd, lineBeg := move x.lineBeg, sfd := if old < x.sfd then move x.sfd else x.sfd,
                  gateKept := x.gateKept || line }

/-- Device time is set (R646). A nanosecond count at or above one second carries into the seconds (DESIGN CHOICE: log
entry 31); instants that are noted elsewhere stay as they are (log entry 86). -/
def stepTime (t : Nat) (s : State) : State :=
  let old := s.net.devTime
  let s := (List.range 4).foldl (fun s p => stepLine old t p s) s
  allGates.foldl (fun s p => stepGate old p s) (setTime t s)

/-- A double write of DTSTEP (R437). -/
def dtStep (hi lo : Word) (s : State) : Option Nat × State :=
  if s.cb rRUCTL 0 then (some 2, s) else (none, stepTime (ofTime hi lo) s)

/-- A write of DTRATE. -/
def dtRate (w : Word) (s : State) : Option Nat × State :=
  if sgn w < -219902325 ∨ 219902325 < sgn w then (some 2, s) else (none, s.cs rDTRATE w)

/-! ### Writes from outside -/

/-- The level that counts for an access of an agent now. -/
def agLevel (s : State) : Agent → Nat
  | .engine e => (s.e e).level
  | _ => 0

/-- An M-level store or the management processor. -/
def mOnly (lvl : Nat) : Agent → Bool
  | .engine _ => decide (2 ≤ lvl)
  | .mgmt => true
  | _ => false

/-- The answer to a write: accepted, or declared failed with its cause (R354). -/
def answered (r : Option Nat × State) : State :=
  { r.2 with answer := match r.1 with
      | some c => .failed c
      | none => .ok }

/-- A write that only M-level stores and the management processor make. -/
def mWrite (ag : Agent) (f : State → Option Nat × State) (s : State) : State :=
  answered (if mOnly (agLevel s ag) ag then f s else (some 2, s))

/-- GATE_CHANGE_ARM (R424, R408): a write of a gate control word. -/
def execGateChangeArm (ag : Agent) (stream : Bool) (i : Nat) (w : Word) (s : State) : Host.Outcome State Fault Refusal :=
  if !(agOk ag && gateNumOk stream i) then .fault .noSuchUnit else .next (mWrite ag (gctlWrite stream i w) s)

/-- DEVICE_TIME_STEP (R646, R437): a double write of DTSTEP. -/
def execDeviceTimeStep (ag : Agent) (sec ns : Word) (s : State) : Host.Outcome State Fault Refusal :=
  if !agOk ag then .fault .noSuchUnit else .next (mWrite ag (dtStep sec ns) s)

/-- DEVICE_TIME_RATE (R435): a write of DTRATE. -/
def execDeviceTimeRate (ag : Agent) (w : Word) (s : State) : Host.Outcome State Fault Refusal :=
  if !agOk ag then .fault .noSuchUnit else .next (mWrite ag (dtRate w) s)

end Sys2Proof.Machine
end

