-- ==== Sys2Proof/Machine/Ports.lean ====
section
/-! DEFINITION. What a port accepts (R414 to R420, R429 to R433), its link (R412, R521), and transmission under gates and
preemption (R421, R422, R426, R427). -/

namespace Sys2Proof.Machine

/-! ### Fields of a frame -/

/-- What the receive path reads of a frame: its tag, an R-TAG's sequence number, its EtherType and where its payload begins. -/
structure Parsed where
  tagged : Bool
  pcp : Nat
  vid : Nat
  rtag : Option Nat
  ety : Nat
  at_ : Nat
deriving DecidableEq, Repr

def parseFrame (os : List Octet) : Parsed :=
  let tagged := u16 os 12 = 0x8100
  let b := if tagged then 16 else 12
  let isR := u16 os b = 0xF1C1
  { tagged := tagged, pcp := if tagged then u16 os 14 / 8192 else 0, vid := if tagged then u16 os 14 % 4096 else 0,
    rtag := if isR then some (u16 os (b + 4)) else none, ety := u16 os (if isR then b + 6 else b),
    at_ := (if isR then b + 6 else b) + 2 }

def etGptp : Nat := 0x88F7
def etArp : Nat := 0x0806
def etIp4 : Nat := 0x0800
def etIp6 : Nat := 0x86DD

/-- 01-80-C2-00-00-0E. -/
def gptpMac : List Octet := [0x01, 0x80, 0xC2, 0x00, 0x00, 0x0E]

/-! ### ICMPv6 (R417, R576) -/

/-- An ICMPv6 message with its checksum. -/
def icmp6Of (src dst : List Octet) (ty : Nat) (body : List Octet) : List Octet :=
  let m := fun (c : Nat) => beOctets 1 ty ++ [0] ++ beOctets 2 c ++ body
  m (65535 - fold16 (pseudoSum src dst 58 (4 + body.length) + sum16 (m 0)))

/-- An IPv6 packet with a whole ICMPv6 message of eight octets or more, and a good checksum. -/
def icmp6Ok (b : List Octet) : Bool :=
  let pl := u16 b 4
  decide (u8 b 0 / 16 = 6 ∧ u8 b 6 = 58 ∧ 40 + pl ≤ b.length ∧ 8 ≤ pl)
    && decide (fold16 (pseudoSum (cut b 8 16) (cut b 24 16) 58 pl + sum16 (cut b 40 pl)) = 65535)

/-- The address that a neighbour solicitation asks for. -/
def ndTarget (b : List Octet) : Option (List Octet) :=
  if icmp6Ok b && u8 b 40 = 135 && u8 b 7 = 255 && decide (24 ≤ u16 b 4) then some (cut b 48 16) else none

/-- The advertisement of address a at a MAC address, to the asker. -/
def ndAnswer (mac a asker : List Octet) : List Octet :=
  ip6Of a asker 58 255 (icmp6Of a asker 136 (beOctets 4 0x60000000 ++ a ++ [2, 1] ++ mac))

/-! ### gPTP messages (R438; 802.1AS, PRESUMED: log entry 33) -/

/-- The identity of the device's clock, from its MAC address. -/
def clockId (s : State) : List Octet :=
  let m := portMac s 0
  m.take 3 ++ [0xFF, 0xFE] ++ m.drop 3

/-- A gPTP message: its header and body, in an untagged frame. -/
def gptpFrame (s : State) (p ty flags corr seq log : Nat) (body : List Octet) : List Octet :=
  gptpMac ++ portMac s p ++ beOctets 2 etGptp
    ++ beOctets 1 (16 + ty) ++ [2] ++ beOctets 2 (34 + body.length) ++ [0, 0] ++ beOctets 2 flags ++ beOctets 8 corr
    ++ beOctets 4 0 ++ clockId s ++ beOctets 2 (p + 1) ++ beOctets 2 seq ++ [0] ++ beOctets 1 log ++ body

/-- A timestamp: 48 bits of seconds, 32 of nanoseconds. -/
def ptpTime (t : Nat) : List Octet := beOctets 6 (t / secU) ++ beOctets 4 (t % secU / 64)

/-- What follows a two-step Sync or a Pdelay_Resp that has left port p with stamp t: its Follow_Up or Pdelay_Resp_Follow_Up, which
carries the stamp (R438, R440). -/
def followUp (s : State) (p : Nat) (os : List Octet) (t : Nat) : Option (List Octet) :=
  let m := os.drop 14
  if u16 os 12 ≠ etGptp || u8 m 6 / 2 % 2 = 0 then none
  else match u8 m 0 % 16 with
  | 0 => some (gptpFrame s p 8 0 0 (u16 m 30) (u8 m 33) (ptpTime t))
  | 3 => some (gptpFrame s p 10 0 0 (u16 m 30) 0x7F (ptpTime t ++ cut m 44 10))
  | _ => none

/-- A Pdelay_Req. -/
def isPdelayReq (os : List Octet) : Bool := u16 os 12 = etGptp && u8 os 14 % 16 = 2

/-- Length with the FCS. -/
def rxLen (f : RxFrame) : Nat := f.octets.length + 4

/-! ### Checks 3 and 4 -/

def mcastHit (s : State) (p : Nat) (dst : List Octet) : Bool :=
  (List.range 16).any fun i =>
    let o := portBlk p + 0o120 + 2 * i
    s.cb (o + 1) 18 && decide (macAt s o = dst)

/-- Check 3 (R414). -/
def addrOk (s : State) (p : Nat) (dst : List Octet) (q : Parsed) : Bool :=
  decide (dst = portMac s p) || (decide (dst = List.replicate 6 0xFF) && decide (q.ety = etArp))
    || (decide (dst = gptpMac) && decide (q.ety = etGptp)) || mcastHit s p dst

def inVlan (s : State) (p v : Nat) : Bool :=
  (List.range 64).any fun i => s.cb (portBlk p + 0o20 + i) 12 && decide (s.cf (portBlk p + 0o20 + i) 0 11 = v)

/-- The VID that a frame has at a port (R415). -/
def vidOf (s : State) (p : Nat) (q : Parsed) : Nat := if q.vid = 0 then s.cf (portBlk p) 5 16 else q.vid

/-- Check 4 (R414, R415). -/
def vlanOk (s : State) (p : Nat) (q : Parsed) : Bool :=
  (q.vid = 0 && q.ety = etGptp) || (decide (vidOf s p q ≠ 0) && inVlan s p (vidOf s p q))

/-! ### Check 5, and what a cuff port accepts (R433) -/

/-- The UDP payload of an IP frame, as its headers place it. -/
def udpPayload (os : List Octet) (q : Parsed) : List Octet :=
  if q.ety = etIp4 then os.drop (q.at_ + 28) else os.drop (q.at_ + 48)

def cuffOk (s : State) (os : List Octet) (q : Parsed) : Bool :=
  q.ety = etGptp || ((q.ety = etIp4 || q.ety = etIp6) &&
    (let b := os.drop q.at_
     let v4 := decide (q.ety = etIp4)
     let u := if v4 then b.drop 20 else b.drop 40
     let d := udpPayload os q
     let ses := u16 d 2 % 16384
     decide (u8 b (if v4 then 9 else 6) = 17 ∧ (v4 = true → u8 b 0 = 0x45) ∧ u16 u 2 = s.cf (ethBlk + 0o40000) 0 15)
      && [ttPairsync, 128 + ttPairsync, ttHeartbeat].contains (u8 d 1) && decide (ses = s.wel.partner) && sesValid s ses && decide (sesKind s ses = 2)))

def etyOk (s : State) (p : Nat) (os : List Octet) (q : Parsed) : Bool :=
  [etGptp, etArp, etIp4, etIp6].contains q.ety && (!isCuff s p || cuffOk s os q)

/-! ### Check 6: streams, gates, meters, elimination (R429 to R432) -/

def stBlk (h : Nat) : Nat := ethBlk + 0o50000 + 8 * h

/-- The frame agrees with the identification of entry h (R429). -/
def streamMatch (s : State) (p : Nat) (os : List Octet) (q : Parsed) (h : Nat) : Bool :=
  let w := stBlk h
  let udp := fun (proto n : Nat) =>
    s.cf (w + 5) 0 15 = 0 || (u8 os (q.at_ + proto) = 17 && decide (s.cf (w + 5) 0 15 = u16 os (q.at_ + n + 2)))
  s.cb w 0 && s.cb w (3 + p) && decide (s.cf w 7 18 = vidOf s p q)
    && (match s.cf w 1 2 with
      | 0 => decide (cut os 0 6 = macAt s (w + 1))
      | 1 => q.ety = etIp4 && decide (cut os (q.at_ + 16) 4 = octetsOf [s.cg (w + 1)]) && udp 9 (4 * (u8 os q.at_ % 16))
      | 2 => q.ety = etIp6 && decide (cut os (q.at_ + 24) 16 = octetsOf (s.cgs (w + 1) 4)) && udp 6 40
      | _ => false)

/-- The entry of lowest handle that a frame matches. -/
def streamOf (s : State) (p : Nat) (os : List Octet) (q : Parsed) : Option Nat :=
  let live := s.ctl.filterMap fun x =>
    if stBlk 0 ≤ x.1 ∧ x.1 < stBlk 1024 ∧ (x.1 - stBlk 0) % 8 = 0 ∧ bit x.2 0 then some ((x.1 - stBlk 0) / 8) else none
  live.find? (streamMatch s p os q)

/-- Units of a token bucket in one octet: CIR counts 100 kbit/s, and device time sixty-fourths of a nanosecond. -/
def octetTok : Nat := 5120000

/-- A meter's colour for a frame of n octets at instant t, after MEF 10.3 as 802.1Qci takes it (log entry 32): pass or drop. -/
def meterFrame (s : State) (m n t : Nat) : Bool × State :=
  let a := ethBlk + 0o72000 + 2 * m
  let fl := ethBlk + 0o76000 + m
  let cbs := s.cf a 18 35 * octetTok
  let ebs := s.cf (a + 1) 18 35 * octetTok
  let b := (tget none s.net.meters m).getD { c := cbs, e := ebs, last := t }
  let dt := t - b.last
  let c1 := min b.c cbs + s.cf a 0 17 * dt
  let spill := c1 - cbs
  let e1 := min ebs (min b.e ebs + s.cf (a + 1) 0 17 * dt + if s.cb fl 0 then spill else 0)
  let c1 := min cbs c1
  let need := n * octetTok
  let put := fun (c e : Nat) (s : State) => s.modNet fun x =>
    { x with meters := tset none x.meters m (some { c := c, e := e, last := max t b.last }) }
  if need ≤ c1 then (true, put (c1 - need) e1 s)
  else if need ≤ e1 then (!s.cb fl 1, put c1 (e1 - need) s)
  else (false, put c1 e1 s)

/-- The vector recovery algorithm of 802.1CB for handle h (R431): pass or drop. A frame without an R-TAG does not pass (log
entry 32). -/
def eliminate (h : Nat) (seq : Option Nat) (s : State) : Bool × State :=
  let x := tget .reset s.net.streams h
  let hist := s.cf (stBlk h + 7) 6 11
  let put := fun (y : StreamRec) (s : State) => s.modNet fun n =>
    { n with streams := tset .reset n.streams h { y with last := s.net.devTime } }
  match seq with
  | none => (false, s)
  | some q =>
    if !x.active then (true, put { x with active := true, high := q, marks := 1 } s)
    else
      let up := (q + 65536 - x.high) % 65536
      let down := (x.high + 65536 - q) % 65536
      if up = 0 then (false, s)
      else if up < 32768 then
        if hist ≤ up then (false, s)
        else (true, put { x with high := q, marks := (x.marks * 2 ^ up + 1) % 2 ^ hist } s)
      else if hist ≤ down then (false, s)
      else if x.marks / 2 ^ down % 2 = 1 then (false, s)
      else (true, put { x with marks := x.marks + 2 ^ down } s)

/-- Check 6: the counter of a refusal, if it refuses. -/
def streamCheck (p : Nat) (f : RxFrame) (q : Parsed) (s : State) : Option Nat × State :=
  match streamOf s p f.octets q with
  | none => (none, s)
  | some h =>
    let w := stBlk h
    let fen := s.cb (w + 6) 0
    let sdu := s.cf (w + 6) 1 11
    let gate := s.cf (w + 6) 12 18
    let meter := s.cf (w + 6) 19 29
    if fen && ((sdu ≠ 0 && decide (sdu < rxLen f)) || (decide (gate < 64) && !streamOpen s gate)) then (some 6, s)
    else
      let r := if fen && decide (meter < 1024) then meterFrame s meter (rxLen f) f.arrival else (true, s)
      if !r.1 then (some 6, r.2)
      else if s.cb (w + 7) 5 then
        let d := eliminate h q.rtag r.2
        (if d.1 then none else some 7, d.2)
      else (none, r.2)

/-- ELIMINATION_RESET_TIMEOUT (R431): no frame of handle h was accepted for RESET milliseconds. -/
def execEliminationResetTimeout (h : Nat) (s : State) : Host.Outcome State Fault Refusal :=
  if 1024 ≤ h then .fault .noSuchUnit
  else .next (
    let x := tget .reset s.net.streams h
    if !x.active then s
    else (bringTo (x.last + s.cf (stBlk h + 7) 12 21 * 1000 * usU) s).modNet fun n =>
      { n with streams := tset .reset n.streams h { x with active := false, marks := 0 } })

/-! ### Checks 7 to 9 -/

/-- A frame for the slow path: gPTP, ARP, ICMP, or ICMPv6 with neighbour discovery. -/
def isSlow (os : List Octet) (q : Parsed) : Bool :=
  q.ety = etGptp || q.ety = etArp || (q.ety = etIp4 && u8 os (q.at_ + 9) = 1) || (q.ety = etIp6 && u8 os (q.at_ + 6) = 58)

/-- Check 7 (R417): at most 1,000 in each TAI second. -/
def slowPath (p : Nat) (f : RxFrame) (s : State) : State :=
  let x := s.port p
  let n := if x.slowSec = nowSec s then x.slowCnt else 0
  if 1000 ≤ n then pCount p 8 s
  else pCount p 0 (s.modPort p fun x => { x with slowSec := nowSec s, slowCnt := n + 1, slowQ := x.slowQ ++ [f] })

/-- Check 8 (R419): the source and destination address and the payload of an IP packet. -/
def ipCheck (s : State) (p : Nat) (os : List Octet) (q : Parsed) : Option (List Octet × List Octet × Nat × List Octet) :=
  let b := os.drop q.at_
  if q.ety = etIp4 then
    let tl := u16 b 2
    let dst := cut b 16 4
    if u8 b 0 = 0x45 ∧ cksum (b.take 20) = 0 ∧ u16 b 6 % 16384 = 0 ∧ 20 ≤ tl ∧ tl ≤ b.length
        ∧ ((List.range 4).any fun i => ip4Valid s p i && decide (portIp4 s p i = dst)) then
      some (cut b 12 4, dst, u8 b 9, cut b 20 (tl - 20))
    else none
  else
    let pl := u16 b 4
    let dst := cut b 24 16
    if u8 b 0 / 16 = 6 ∧ u8 b 6 = 17 ∧ 40 + pl ≤ b.length
        ∧ ((List.range 4).any fun i => ip6Valid s p i && decide (portIp6 s p i = dst)) then
      some (cut b 8 16, dst, 17, cut b 40 pl)
    else none

/-- Check 9 (R420): the source port and the payload of a UDP datagram to the Septeg port. -/
def udpCheck (s : State) (v6 : Bool) (src dst : List Octet) (proto : Nat) (u : List Octet) : Option (Nat × List Octet) :=
  let len := u16 u 4
  let ck := u16 u 6
  let sumOk := if ck = 0 then !v6 && s.cb (ethBlk + 0o40000) 16
    else fold16 (pseudoSum src dst 17 len + sum16 (u.take len)) = 65535
  if proto = 17 ∧ 8 ≤ len ∧ len ≤ u.length ∧ u16 u 2 = s.cf (ethBlk + 0o40000) 0 15 ∧ sumOk then
    some (u16 u 0, cut u 8 (len - 8))
  else none

/-! ### The link (R412, R521) -/

/-- Everything queued for a port is discarded, and a frame on the line is cut off. -/
def dropQueues (p : Nat) (s : State) : State :=
  let x := s.port p
  let n := (x.txq.map fun q => q.2.length).sum + x.onLine.toList.length + x.preempted.toList.length
  (s.cadd2 (portBlk p + 0o300 + 26) n).modPort p fun x => { x with txq := [], onLine := none, preempted := none, preKept := false }

/-- LINK becomes 0: `fault` is set when the link was lost while the port is enabled, which is a failure (R513, R521). -/
def linkFall (p : Nat) (fault : Bool) (s : State) : State :=
  if !portLink s p then s
  else
    let s := dropQueues p (s.csf (rPSTAT p) 0 2 0)
    let s := s.modPort p fun x => { x with vfy := 0 }
    if fault then jEvent 0o401 0 [mkW 3, mkW p] (fltRec 3 p 0o12 (s.csf (rPSTAT p) 3 3 1)) else s

/-- LINK_UP (R412): lock and the absence of faults have held for 1 ms. -/
def execLinkUp (p : Nat) (s : State) : Host.Outcome State Fault Refusal :=
  if 4 ≤ p then .fault .noSuchUnit
  else .next (if !portEn s p || portLink s p || s.sys.heldInReset then s
    else
      let s := bringTo (s.net.devTime + 1000 * usU) s
      jEvent 0o402 0 [mkW 3, mkW p] ((s.csf (rPSTAT p) 0 0 1).csf (rPSTAT p) 1 1 (s.cf (portBlk p) 2 2)))

/-- LINK_DOWN (R412). The row does not say what was lost: whether RS-FEC alignment stays locked (FECLK, R411) is a free value (log
entry 80). -/
def execLinkDown (p : Nat) (s : State) : Host.Outcome State Fault Refusal :=
  if 4 ≤ p then .fault .noSuchUnit
  else .next (if !(portEn s p && portLink s p) then s
    else
      let lock := s.cb (rPSTAT p) 1 && Config.freeLock s.freeCtr
      let s := (linkFall p true s).csf (rPSTAT p) 1 1 lock.toNat
      { s with freeCtr := s.freeCtr + 1 })

/-- PREEMPTION_VERIFY (R426): an attempt of 10 ms ends; three are made. -/
def execPreemptionVerify (p : Nat) (ok : Bool) (s : State) : Host.Outcome State Fault Refusal :=
  if 4 ≤ p then .fault .noSuchUnit
  else .next (
    if !(portLink s p && s.cb (portBlk p) 4) || s.cb (rPSTAT p) 2 || decide (3 ≤ (s.port p).vfy) then s
    else if ok then s.csf (rPSTAT p) 2 2 1
    else (bringTo (s.net.devTime + 10000 * usU) s).modPort p fun x => { x with vfy := x.vfy + 1 })

/-! ### Transmission (R421, R422, R426, R427) -/

/-- The octet time at the rate of a port, 0.8 ns or 0.32 ns, in hundredths of the unit of device time. -/
def octetT (s : State) (p : Nat) : Nat := if s.cb (portBlk p) 1 then 2048 else 5120

/-- The time of n octets on the line, rounded up to units of device time. -/
def lineTime (s : State) (p n : Nat) : Nat := (n * octetT s p + 99) / 100

/-- The list in operation on a port at instant t: at its change time a pending one takes over, or none where EN is 0 (R424,
R651). -/
def gateFrom (s : State) (p t : Nat) : Option GateRun :=
  match (s.port p).chgAt with
  | some c => if c ≤ t then changeRun false p s else (s.port p).gate
  | none => (s.port p).gate

/-- The gate of class k of a port stays open from instant t to instant `fin`, through a pending change too. -/
def openUntil (s : State) (p k : Nat) : Nat → Nat → Nat → Bool
  | 0, _, _ => true
  | n + 1, t, fin =>
    let (here, ends) := match gateFrom s p t with
      | some g => let r := gAt s false p g t; (decide (s.cf (rGlist false p g.list + r.1) 0 7 / 2 ^ (7 - k) % 2 = 1), r.2)
      | none => (true, fin)
    let nxt := match (s.port p).chgAt with
      | some c => if t < c then min ends c else ends
      | none => ends
    if !here then false
    else if fin ≤ nxt then true
    else openUntil s p k n (max nxt (t + 1)) fin

/-- Frames are preempted on the port, and class k is preemptable (R426). -/
def preemptable (s : State) (p k : Nat) : Bool :=
  s.cb (portBlk p) 4 && s.cb (rPSTAT p) 2 && !s.cb (portBlk p + 0o14) k

/-- The preempted frame of a class. -/
def heldFrame (s : State) (p k : Nat) : Option TxFrame := (s.port p).preempted.filter fun f => f.cls = k

/-- The class that may start now: the highest whose gate is open and whose first frame passes R422. A preempted frame goes on before
any other of its class; while there is one, no other preemptable frame starts. -/
def startable (s : State) (p k : Nat) : Bool :=
  let now := s.net.devTime
  if (heldFrame s p k).isSome then classOpen s p k || (s.port p).preKept
  else if preemptable s p k then classOpen s p k && (s.port p).preempted.isNone && !(txQ s p k).isEmpty
  else match txQ s p k with
    | f :: _ => classOpen s p k && openUntil s p k 600 now (now + lineTime s p (f.octets.length + 12))
    | [] => false

def bestClass (s : State) (p : Nat) : Option Nat := ((List.range 8).map (7 - ·)).find? (startable s p)

/-- A frame of class k takes the line, with its stamp at the end of its start-of-frame delimiter (R440); or a preempted one goes on
with the stamp of its first fragment (R428). -/
def startFrame (p k : Nat) (s : State) : State :=
  let now := s.net.devTime
  match heldFrame s p k with
  | some f => s.modPort p fun x =>
      { x with onLine := some f, preempted := none, lineEnd := now + x.preLeft, preLeft := 0, lineBeg := now, sfd := x.preSfd,
               gateKept := x.preKept, preKept := false }
  | none => match txQ s p k with
    | f :: q => (setTxQ p k q s).modPort p fun x =>
        { x with onLine := some f, lineEnd := now + lineTime s p (f.octets.length + 24), lineBeg := now, sfd := now + lineTime s p 8,
                 gateKept := false }
    | [] => s

def selectFrame (p : Nat) (s : State) : State :=
  match bestClass s p with
  | some k => startFrame p k s
  | none => s

/-- The next instant at which the fragment on the line has the least length that 802.3br asks of one that is not the last: 64 octets
with its check, and AFS times 64 more. -/
def preemptPoint (s : State) (p : Nat) : Nat :=
  max s.net.devTime ((s.port p).lineBeg + lineTime s p (64 * (1 + s.cf (portBlk p + 0o14) 8 9) + 4))

/-- The frame on the line is to be preempted (R427), and at the next allowed point 64 octets are left for its last fragment (802.3br;
PRESUMED: log entry 81). -/
def mustPreempt (s : State) (p : Nat) (f : TxFrame) : Bool :=
  preemptable s p f.cls && decide (preemptPoint s p + lineTime s p 76 ≤ (s.port p).lineEnd)
    && (!((s.port p).gateKept || classOpen s p f.cls) || (List.range 8).any fun k => !preemptable s p k && startable s p k)

/-- The port may transmit (R409, R412, R536). -/
def mayTransmit (s : State) (p : Nat) : Bool := vok s && portEn s p && portLink s p && !s.sys.heldInReset

end Sys2Proof.Machine
end

