-- ==== Sys2Proof/Machine/Role.lean ====
section
/-! DEFINITION. The roles of a partner pair: ARB_IN and ARB_OUT, promotion and demotion, planned switchover, and the PAIRSYNC
stream of the primary and at the standby (R470, R471, R537 to R549). -/

namespace Sys2Proof.Machine

/-! ### PAIRSTAT -/

def wprom (s : State) : Bool := s.cb rPAIRSTAT 6
def partnerUp (s : State) : Bool := s.cb rPAIRSTAT 4
def pairInSync (s : State) : Bool := s.cb rPAIRSTAT 5

/-- Event 401 or 402 for the partner, unit kind 7 (R545, R546). -/
def partnerEvent (code : Nat) (s : State) : State := jEvent code 0 [mkW 7, mkW 0] s

/-- Words of the PAIRING command in effect (R497), with the role that the device has now (R537). -/
def pairRecord (s : State) : StoreRec :=
  let cuffs := (cuffPorts s).foldl (fun n p => n + 2 ^ (3 - p)) 0
  { rtype := 0o14, key := [], data := [place 0 1 (pairRoleOf s) ||| place 2 5 cuffs ||| place 6 19 s.wel.partner,
      place 0 13 s.wel.witness ||| bitAt 14 s.wel.witnessEn] }

/-- The device has a role: ARB_OUT carries its pattern (R539), and the PAIRSYNC stream starts anew. -/
def setRole (r : Nat) (s : State) : State :=
  let s := ((s.csf rPAIRSTAT 0 1 r).csf rPAIRSTAT 5 5 0).csf rPAIRSTAT 7 7 0
  let s := { s with sys := { s.sys with arbOut := if r = 1 then .primary else .standby } }
  s.modWel fun w =>
    { w with pairRole := r, swAt := none, finalMark := false, held := [], kept := [], recNext := 1, recSent := 1, ackd := 0,
             applied := 0, inStream := false, ackLast := none, ackEpoch := 0, ackSync := false }

/-- The device takes a role: the stored role and the journal follow it (R537; the entry's code: log entry 34). -/
def takeRole (r : Nat) (s : State) : State :=
  let s := setRole r s
  storeDelta [pairRecord s] (jEvent 0o164 0 [mkW r] s)

/-- Boundaries whose staging interval has begun are skipped without being counted (R548). -/
def skipStaged (s : State) : State :=
  let ks := (s.rel.staged.map Entry.ctx).eraseDups
  ks.foldl (fun s k => disSync k s) (s.modRel fun r => { r with staged := [] })

/-- The primary owes its standby a resynchronisation (R543). -/
def resyncDue (s : State) : State := if isPrimary s then needResync s else s

/-- Promotion (R548). A partner whose session is up is the standby from then on, and is resynchronised (R543; DEDUCED: log entry 35). -/
def promoteRole (byWitness : Bool) (s : State) : State :=
  let s := (takeRole 1 (skipStaged s)).csf rPAIRSTAT 6 6 byWitness.toNat
  if partnerUp s then resyncDue s else s

/-- Demotion (R546). -/
def demoteRole (s : State) : State := (takeRole 2 s).csf rPAIRSTAT 6 6 0

/-! ### What the device observes (R545, R546) -/

def arbCode : ArbPattern → Nat
  | .absent => 0
  | .primary => 1
  | .standby => 2
  | .failed => 3

/-- A primary that observes a second primary. -/
def secondPrimary (s : State) : State := if isPrimary s && !wprom s then demoteRole s else s

/-- The role that follows from the pattern on ARB_IN (R545, R546). -/
def arbRole (pat : ArbPattern) (s : State) : State :=
  if isStandby s then
    match pat with
    | .failed => promoteRole false s
    | .standby => if partnerUp s && s.wel.finalMark then promoteRole false s else s
    | .absent | .primary => s
  else if pat = .primary then secondPrimary s else s

/-- A primary has lost its partner: ARB_IN reads failed or absent, or the partner session is down (R546). -/
def partnerLost (s : State) : Bool := s.sys.arbIn = .absent || s.sys.arbIn = .failed || !partnerUp s

/-- What is journaled of a change of ARB_IN or of the partner session: a primary's loss of its partner and the return of a standby
(R546); at a standby, the two states of the table of R545 that are journaled. `was` is whether the partner was lost before. -/
def pairEvents (was : Bool) (s : State) : State :=
  if isPrimary s then (if partnerLost s = was then s else partnerEvent (if was then 0o402 else 0o401) s)
  else if isStandby s && ((s.sys.arbIn = .absent && partnerUp s) || (s.sys.arbIn = .primary && !partnerUp s)) then partnerEvent 0o401 s
  else s

/-- ARB_IN is classified. -/
def setArbIn (pat : ArbPattern) (s : State) : State :=
  let was := partnerLost s
  let s := { s with sys := { s.sys with arbIn := pat } }
  arbRole pat (pairEvents was (s.csf rPAIRSTAT 2 3 (arbCode pat)))

/-- ARB_IN_PATTERN (R545): four half-periods agree. A pattern that goes on still has its say on a role taken since (R545, R546). -/
def execArbInPattern (pat : ArbPattern) (s : State) : Host.Outcome State Fault Refusal :=
  .next (if pat = .absent then s else if s.sys.arbIn = pat then arbRole pat s else setArbIn pat s)

/-- ARB_IN_ABSENT (R539): no edge for 2 µs. -/
def execArbInAbsent (s : State) : Host.Outcome State Fault Refusal :=
  .next (if s.sys.arbIn = .absent then s else setArbIn .absent (bringTo (s.net.devTime + 2 * usU) s))

/-! ### The partner session -/

/-- UP of a session changes: journaled (R467), and reported to the pair where it is the partner's; a standby is synchronised only while it
is up (R543). -/
def setUp (ses : Nat) (up : Bool) (s : State) : State :=
  if sesUp s ses = up then s
  else
    let s := jEvent 0o407 (sesTenant s ses) [mkW ses, mkW up.toNat] (s.csf (rSes ses 11) 0 0 up.toNat)
    if sesKind s ses ≠ 2 || ses ≠ s.wel.partner then s
    else
      let was := partnerLost s
      let s := s.csf rPAIRSTAT 4 4 up.toNat
      pairEvents was (if up then resyncDue s
        else (s.csf rPAIRSTAT 5 5 0).modWel fun w => { w with ackSync := false })

/-! ### HEARTBEAT (R467) -/

/-- HBINT in the units of device time; HBLOSS, which acts as 1 where it is 0. -/
def hbInt (s : State) (ses : Nat) : Nat := sesF s ses 2 16 25 * 100 * usU
def hbLoss (s : State) (ses : Nat) : Nat := max 1 (sesF s ses 2 26 29)

/-- Sends one HEARTBEAT. -/
def sendHeartbeat (ses : Nat) (s : State) : State :=
  let now := s.net.devTime
  let sync := s.cf rDTSTAT 0 2 = 1 || s.cf rDTSTAT 0 2 = 3
  let o : Nat := pairRoleOf s * 64 + (if sync then 32 else 0)
  sgSend ses ttHeartbeat 0 0 (packWords [timeHi now, timeLo now] ++ beOctets 1 o)
    (s.modNet fun n => { n with hbSent := tset 0 n.hbSent ses now })

/-- HEARTBEAT_SEND (R467). -/
def execHeartbeatSend (ses : Nat) (s : State) : Host.Outcome State Fault Refusal :=
  if 16384 ≤ ses then .fault .noSuchUnit
  else .next (if !sesValid s ses || sesKind s ses = 3 || hbInt s ses = 0 then s
    else sendHeartbeat ses (bringTo (tget 0 s.net.hbSent ses + hbInt s ses) s))

/-- SESSION_DOWN (R467): no frame of the session was accepted for HBLOSS intervals. -/
def execSessionDown (ses : Nat) (s : State) : Host.Outcome State Fault Refusal :=
  if 16384 ≤ ses then .fault .noSuchUnit
  else .next (if !sesValid s ses || !sesUp s ses || hbInt s ses = 0 then s
    else setUp ses false (bringTo (tget 0 s.net.hbSilent ses + hbLoss s ses * hbInt s ses) s))

/-- The final marker of R549 has been applied: the partner reports itself standby, and the last that a synchronised standby applied of its
stream is an epoch marker (DEDUCED: log entry 35). -/
def finalSeen (s : State) : State :=
  s.modWel fun w => { w with finalMark := isStandby s && pairInSync s && w.partnerRole = 2 && w.held.isEmpty }

/-- The content of an accepted HEARTBEAT (R467, R545, R546, R549): the partner's role. -/
def heartbeatIn (ses : Nat) (pl : List Octet) (s : State) : State :=
  if sesKind s ses ≠ 2 || ses ≠ s.wel.partner then s
  else
    let role := u8 pl 9 / 64
    let s := finalSeen (s.modWel fun w => { w with partnerRole := role })
    if isStandby s && role = 2 then arbRole s.sys.arbIn s
    else if role = 1 then secondPrimary s else s

/-! ### The stream of the primary (R541, R543, R471) -/

/-- EPOCH_MARKER (R541). Two markers of one device time end a resynchronisation; any other comes at a later time. -/
def execEpochMarker (s : State) : Host.Outcome State Fault Refusal :=
  .next (if !streaming s then s
    else
      let again : Bool := match s.wel.kept.getLast? with
        | some (_, .epoch t) => decide (t = s.net.devTime)
        | _ => false
      let s := bringTo (s.net.devTime + again.toNat) s
      pairFlush (pairAppend (.epoch s.net.devTime) s))

/-- The lines of every streamed segment (R541). -/
def streamedLines (s : State) : List Nat :=
  ((allDescs s).filter fun d => d.t ≠ 0 && d.typ = tyData && !namedInput s d.t d.i).flatMap fun d => linesOf d.base d.size

/-- RESYNCHRONISATION (R543): every line of every streamed segment, then two epoch markers of one time. -/
def execResynchronisation (s : State) : Host.Outcome State Fault Refusal :=
  .next (if !streaming s || !s.cb rPAIRSTAT 7 then s
    else
      let now := s.net.devTime
      let s := (streamedLines s).foldl (fun s l => pairAppend (.line l (peekLine s l).1) s) s
      (pairFlush (pairAppend (.epoch now) (pairAppend (.epoch now) s))).csf rPAIRSTAT 7 7 0)

/-- The records that have been sent and not acknowledged. -/
def unacked (s : State) : List (Nat × PairRec) := s.wel.kept.takeWhile fun r => r.1 ≠ s.wel.recSent

/-- PAIRSYNC_RETRANSMIT (R471): no progress for 100 µs. -/
def execPairsyncRetransmit (s : State) : Host.Outcome State Fault Refusal :=
  .next (
    let rs := unacked s
    if !isPrimary s || rs.isEmpty then s
    else
      let s := bringTo (s.wel.progAt + 100 * usU) s
      let n := min 262143 (s.cf (rPAIRSTAT + 1) 18 35 + rs.length)
      pairSend rs.length rs ((s.csf (rPAIRSTAT + 1) 18 35 n).modWel fun w => { w with progAt := s.net.devTime }))

/-! ### The stream at the standby (R542, R543) -/

/-- One held line record is written, or discarded and counted. -/
def applyLine (r : PairRec) (s : State) : State :=
  match r with
  | .line l ws =>
    if inTenantData s l then (cohMerge l full32 ws s).2 else s.csat (rPAIRSTAT + 1) 0 17
  | _ => s

/-- The lines held until a marker are written. -/
def applyHeld (s : State) : State :=
  s.wel.held.foldl (fun s r => applyLine r s) s |>.modWel fun w => { w with held := [] }

/-- One record in order: line and context records wait for their marker. Two epoch markers of one device time with no record
between them end a resynchronisation (R543). -/
def applyRecord (r : PairRec) (s : State) : State :=
  match r with
  | .line .. => s.modWel fun w => { w with held := w.held ++ [r] }
  | .context .. => s.modWel fun w => { w with held := w.held ++ [r] }
  | .commit _ _ =>
    let cs := s.wel.held
    cs.foldl (fun s r => match r with
      | .context k ws => s.css (rCtx k 27) ws
      | _ => s) (applyHeld s)
  | .epoch t =>
    let ends := decide (t = s.wel.lastEpoch) && s.wel.held.isEmpty && s.cb rPAIRSTAT 4 && decide (s.net.devTime ≤ t + 2000 * usU)
    let s := (applyHeld s).modWel fun w => { w with lastEpoch := t }
    if ends then s.csf rPAIRSTAT 5 5 1 else s

/-- A record with its number: applied in RECNO order only. -/
def takeRecord (n : Nat) (r : PairRec) (s : State) : State :=
  if s.wel.inStream && decide (n ≠ (s.wel.applied + 1) % 2 ^ 32) then s
  else (applyRecord r s).modWel fun w => { w with applied := n, inStream := true }

/-- The records of a payload; none where it is malformed. -/
def parseRecs : Nat → List Octet → Option (List PairRec)
  | 0, [] => some []
  | 0, _ => none
  | n + 1, os =>
    let go := fun (len : Nat) (r : PairRec) => if os.length < 1 + len then none else (parseRecs n (os.drop (1 + len))).map (r :: ·)
    let tm := fun (i : Nat) => match unpackWords 2 (cut os i 9) with
      | [a, b] => ofTime a b
      | _ => 0
    match u8 os 0 with
    | 1 => go 40 (.line (beNat (cut os 1 4)) (unpackWords 8 (cut os 5 36)))
    | 2 => go 25 (.context (u16 os 1) (unpackWords 5 (cut os 3 23)))
    | 3 => go 11 (.commit (u16 os 1) (tm 3))
    | 4 => go 9 (.epoch (tm 1))
    | _ => none

/-- Takes the first waiting transaction of a type. -/
def nextIn (s : State) (ty : Nat) : Option (SgIn × State) :=
  match s.net.inq.find? fun x => x.ty = ty with
  | some x => some (x, s.modNet fun n => { n with inq := n.inq.erase x })
  | none => none

/-- PAIRSYNC (R471): the standby applies what is in order, and acknowledges. -/
def execPairsync (s : State) : Host.Outcome State Fault Refusal :=
  .next (match nextIn s ttPairsync with
    | none => s
    | some (x, s) =>
      let pl := x.payload
      let n0 := beNat (pl.take 4)
      match if pl.length < 5 || u8 pl 4 = 0 then none else parseRecs (u8 pl 4) (pl.drop 5) with
      | none => sgCount 1 s
      | some rs =>
        if !isStandby s then s
        else
          let ns := (List.range rs.length).map fun i => (n0 + i) % 2 ^ 32
          let s := (List.zipWith Prod.mk ns rs).foldl (fun s p => takeRecord p.1 p.2 s) s
          let s := finalSeen (sgRespond x.ses ttPairsync x.txid 0 (beOctets 4 s.wel.applied) s)
          if s.wel.finalMark then arbRole s.sys.arbIn s else s)

/-- What the acknowledgement of a record says of the standby: it is synchronised from the second marker of a resynchronisation on, and
its last applied marker is known (R543). -/
def ackRec (r : PairRec) (w : Wel) : Wel :=
  match r with
  | .epoch t => { w with ackSync := w.ackSync || decide (w.ackLast = some t), ackLast := some t, ackEpoch := t }
  | _ => { w with ackLast := none }

/-- PAIRSYNC_ACK (R471): the primary drops what is acknowledged. -/
def execPairsyncAck (s : State) : Host.Outcome State Fault Refusal :=
  .next (match nextIn s (128 + ttPairsync) with
    | none => s
    | some (x, s) =>
      let a := beNat (x.payload.take 4)
      if x.payload.length ≠ 4 then sgCount 1 s
      else if !isPrimary s || !(unacked s).any (fun r => r.1 = a) then s
      else
        let rest := (s.wel.kept.dropWhile fun r => r.1 ≠ a).drop 1
        let w := (s.wel.kept.take (s.wel.kept.length - rest.length)).foldl (fun w r => ackRec r.2 w) s.wel
        { s with wel := { w with ackd := a, progAt := s.net.devTime, kept := rest } })

/-- STANDBY_SYNC_LOST (R543): the last applied epoch marker lies 2 ms behind, or the partner session is down. -/
def execStandbySyncLost (s : State) : Host.Outcome State Fault Refusal :=
  .next (if !isStandby s || !pairInSync s then s
    else (bringTo (s.wel.lastEpoch + 2000 * usU) s).csf rPAIRSTAT 5 5 0)

/-! ### The planned switchover (R549) -/

/-- Some activation is released and has not ended. -/
def anyLive (s : State) : Bool := !(liveCtxs s).isEmpty || !s.rel.waiting.isEmpty

end Sys2Proof.Machine
end

