-- ==== Sys2Proof/Machine/Queue.lean ====
section
/-! DEFINITION. The pools of engines, and the queue of Welana's commands (R371, R481, R490, R493). -/

namespace Sys2Proof.Machine

/-! ### Pools and tenants (R371) -/

/-- A shared pool by its cluster group, or a sealed tenant's pool by its sealed index. -/
inductive Pool where
  | shared (g : Nat)
  | sealed_ (i : Nat)
deriving DecidableEq, Repr

/-- The group of cluster c, and the groups there are. -/
def groupOf (s : State) (c : Nat) : Nat := fld s.wel.groups (3 * c) (3 * c + 2)
def groupsUsed (s : State) : List Nat := (List.range 8).filter fun g => (List.range 12).any fun c => groupOf s c = g

def poolEngs (s : State) : Pool → List Nat
  | .shared g => (List.range 144).filter fun e => groupOf s (e / 12) = g && !s.cb (rDEDIC e) 0
  | .sealed_ i => (List.range 144).filter fun e => s.cb (rDEDIC e) 0 && s.cf (rDEDIC e) 1 6 = i

def tenState (s : State) (t : Nat) : Nat := s.cf (rTen t 0) 0 1
def tenSidx (s : State) (t : Nat) : Nat := s.cf (rTen t 0) 3 8

/-- Contexts whose records are not all zero. -/
def ctxList (s : State) : List Nat :=
  ((s.ctl.filter fun p => decide (ctxBlk ≤ p.1 ∧ p.1 < ctxBlk + 0o2000000)).map fun p => (p.1 - ctxBlk) / 32).eraseDups

/-- The contexts of a tenant that are not free. -/
def tenCtxs (s : State) (t : Nat) : List Nat :=
  (ctxList s).filter fun k => ctxTenant s k = t && ctxState s k ≠ 0

/-- An activation of tenant t is live, or staged. -/
def tenLive (s : State) (t : Nat) : Bool := (tenCtxs s t).any fun k => ctxLive s k || ctxStaged s k

/-! ### The queue (R490) -/

/-- Welana runs: the active management engine is up. -/
def welUp (s : State) : Bool := tget false s.wel.mpUp (s.cf rMPSTAT 0 0)

/-- The boot set is in effect, Welana's own actions, ahead of every command, are done, and no command runs: UNIT RETIRE of an engine
or a cluster, of class C, runs until its result is posted. -/
def welIdle (s : State) : Bool :=
  welUp s && vok s && !s.wel.rerunDue && s.wel.failed.isEmpty && s.wel.failedU.isEmpty
    && !(s.wel.ljobs.any fun j => j.code = 0o160)
    && !((tenList s).any fun t => tenState s t = 2 && tenSealed s t && !tenLive s t && !(poolEngs s (.sealed_ (tenSidx s t))).isEmpty)

/-- The command that is next: the debug mailbox, then the network mailboxes, then the tenant mailboxes, each in order of
arrival. -/
def nextCmd (s : State) : Option WCmd :=
  let q := s.wel.queue
  let isDbg := fun (c : WCmd) => c.src = .debug
  let isNet := fun (c : WCmd) => match c.src with
    | .network _ => true
    | _ => false
  match q.find? isDbg with
  | some c => some c
  | none => match q.find? isNet with
    | some c => some c
    | none => q.head?

/-- A command leaves the queue and runs: QLEN counts it until its result is posted (R481). -/
def running (s : State) : State := s.csf rMPSTAT 15 27 (s.wel.queue.length + s.wel.ljobs.length + 1)

def takeCmd (c : WCmd) (s : State) : State := running (s.modWel fun w => { w with queue := w.queue.erase c })

/-- Check 1 of R493: the commands with an unassigned code that are next are answered 01 in their turn. No row of the command table
stands for them: Welana takes them as soon as nothing is ahead of them (DESIGN CHOICE: log entry 49). -/
def answerUnassigned : Nat → State → State
  | 0, s => s
  | n + 1, s => match nextCmd s with
    | none => s
    | some c =>
      if !welIdle s || cmdAssigned (msgCmd c.msg) then s else answerUnassigned n (postErr c.src c.msg 1 0 (takeCmd c s))

def drainUnassigned (s : State) : State := answerUnassigned s.wel.queue.length s

/-- A command enters Welana's queue. -/
def enqueueCmd (src : MbSrc) (msg : List Word) (s : State) : State :=
  drainUnassigned (qlenSync (s.modWel fun w => { w with queue := w.queue ++ [{ src := src, msg := msg }] }))

end Sys2Proof.Machine
end

