-- ==== Sys2Proof/Machine/Septeg.lean ====
section
/-! DEFINITION. The receive checks of the Septeg engine (R447, R450, R451), the receive path as a whole (R414), transmission
(R421), and the transactions: PUBLISH, READ, WRITE, MAILBOX, TIME, HEARTBEAT and output publishing (R453 to R469). -/

namespace Sys2Proof.Machine

/-! ### Receive checks (R447, R450, R451) -/

/-- The transaction types that a session of a kind accepts (R447). -/
def kindAccepts (kind ty : Nat) : Bool :=
  match kind with
  | 0 => [1, 5].contains ty
  | 1 => [2, 3, 4, 5, 6].contains ty
  | 2 => [5, 7, 0o207].contains ty
  | _ => false

/-- TYPE is assigned (R443). -/
def tyAssigned (ty : Nat) : Bool := decide (1 ≤ ty ∧ ty ≤ 7) || [0o202, 0o203, 0o204, 0o206, 0o207].contains ty

/-- The replay window passes a sequence number (R450). -/
def replayOk (k : KeySlot) (seq : Nat) : Bool :=
  decide (seq ≠ 0) && (decide (k.h < seq) || (decide (k.h - seq < 64) && decide (k.marks / 2 ^ (k.h - seq) % 2 = 0)))

/-- The update of the replay window (R450). -/
def replayTake (k : KeySlot) (seq : Nat) : KeySlot :=
  if k.h < seq then { k with h := seq, marks := (k.marks * 2 ^ min 64 (seq - k.h)) % 2 ^ 64 / 2 * 2 + 1 }
  else { k with marks := if k.marks / 2 ^ (k.h - seq) % 2 = 1 then k.marks else k.marks + 2 ^ (k.h - seq) }

/-- A refusal at check n, counted in counter c; at checks 3 to 6 also for the valid session (R451). -/
def sgRefuse (ses n c : Nat) (s : State) : State :=
  let s := sgCount c s
  if n < 3 || !sesValid s ses then s
  else (s.cs (rSes ses 10) (s.cg (rSes ses 10) + 1)).csf (rSes ses 11) 4 7 n

/-- Check 3: the session, its direction, port and addresses. -/
def sesAdmits (s : State) (ses ty dir p : Nat) (v6 : Bool) (src dst : List Octet) (sport : Nat) : Bool :=
  let lip := sesF s ses 1 25 26
  sesValid s ses && decide (sesKind s ses ≠ 3) && kindAccepts (sesKind s ses) ty
    && decide (dir = if sesKind s ses = 2 then 1 else 0) && s.cb (rSes ses 0) (21 + p)
    && decide (sesIp6 s ses = v6) && decide (src = sesIp s ses) && decide (sport = sesF s ses 2 0 15)
    && (if v6 then ip6Valid s p lip && decide (dst = portIp6 s p lip) else ip4Valid s p lip && decide (dst = portIp4 s p lip))

/-- The checks of R451 up to 6 on a datagram; what passes waits for its transaction's own step. -/
def sgReceive (p : Nat) (f : RxFrame) (v6 : Bool) (src dst : List Octet) (sport : Nat) (d : List Octet) (s : State) : State :=
  let len := u16 d 10
  let ty := u8 d 1
  let ses := u16 d 2 % 16384
  let kid := u8 d 0 / 8 % 2
  let dir := u8 d 0 / 4 % 2
  let seq := beNat (cut d 4 6)
  if d.length < 32 ∨ d.length ≠ 32 + len ∨ 1408 < len then sgCount 1 s
  else if u8 d 0 / 16 ≠ 1 || u8 d 0 % 4 ≠ 0 || u8 d 2 / 64 ≠ 0 || u8 d 15 ≠ 0 || !tyAssigned ty then sgCount 1 s
  else if !sesAdmits s ses ty dir p v6 src dst sport then sgRefuse ses 3 2 s
  else
    let k := keyOf s ses kid
    if !k.loaded then sgRefuse ses 4 3 s
    else if !replayOk k seq then sgRefuse ses 5 4 s
    else
      let side := if sesKind s ses = 2 then 1 - sesF s ses 2 30 30 else 0
      match gcmOpen k.key (sgNonce k.salt dir side seq) (d.take 16) (cut d 16 len) (d.drop (16 + len)) with
      | none => sgRefuse ses 6 5 s
      | some pl =>
        let s := modKey ses kid (fun k => replayTake k seq) s
        let s := sgCount 0 (s.cs (rSes ses 9) (s.cg (rSes ses 9) + 1))
        let s := setUp ses true (s.modNet fun n => { n with hbSilent := tset 0 n.hbSilent ses s.net.devTime })
        let x : SgIn :=
          { ses := ses, port := p, arrival := f.arrival, ty := ty, seq := seq, txid := u16 d 12, frameLen := rxLen f,
            fragmented := f.fragmented, payload := pl }
        s.modNet fun n => { n with inq := n.inq ++ [x] }

/-! ### The receive path (R414) -/

/-- The checks of R414 on a frame that has arrived whole. -/
def receiveFrame (p : Nat) (f : RxFrame) (s : State) : State :=
  let q := parseFrame f.octets
  if f.fragBad then pCount p 2 s
  else if s.cb (portBlk p) 2 && f.fecBad then pCount p 1 s
  else if !f.fcsOk || decide (rxLen f < 64 ∨ 1522 < rxLen f) then pCount p 2 s
  else if !addrOk s p (f.octets.take 6) q then pCount p 3 s
  else if !vlanOk s p q then pCount p 4 s
  else if !etyOk s p f.octets q then pCount p 5 s
  else
    let r := streamCheck p f q s
    match r.1 with
    | some c => pCount p c r.2
    | none =>
      let s := r.2
      if isSlow f.octets q then slowPath p f s
      else match ipCheck s p f.octets q with
      | none => pCount p 9 s
      | some (src, dst, proto, u) =>
        match udpCheck s (q.ety = etIp6) src dst proto u with
        | none => pCount p 10 s
        | some (sport, d) => sgReceive p f (q.ety = etIp6) src dst sport d (pCount p 0 s)

/-! ### The recovery loader's address (R576) -/

def inRecovery (s : State) : Bool := s.boot.phase = .recovery && !s.boot.recReset

/-- The MAC address of a port by the fuses (R551), and the link-local address formed from it as EUI-64. -/
def fusedMac (p : Nat) : List Octet := beOctets 6 (otpMacBase + p)

def linkLocal (mac : List Octet) : List Octet :=
  [0xFE, 0x80, 0, 0, 0, 0, 0, 0] ++ (mac.take 1).map (· ^^^ 2) ++ cut mac 1 2 ++ [0xFF, 0xFE] ++ mac.drop 3

/-- The loader's answer to a frame: to a neighbour solicitation for its address, on its line's VLAN, and to nothing else. -/
def loaderAnswer (s : State) (p : Nat) (f : RxFrame) : Option (List Octet) :=
  let q := parseFrame f.octets
  let (port, _, vid) := s.boot.recLine
  let mac := fusedMac p
  let a := linkLocal mac
  let mine := decide (p = port) && f.fcsOk && !f.fragmented && decide (64 ≤ rxLen f ∧ rxLen f ≤ 1522) && decide (q.ety = etIp6)
    && (match vid with
      | none => !q.tagged
      | some v => q.tagged && decide (q.vid = v))
    && decide (f.octets.take 6 = mac ∨ f.octets.take 6 = [0x33, 0x33, 0xFF] ++ mac.drop 3)
  if mine && decide (ndTarget (f.octets.drop q.at_) = some a) then
    let ip := ndAnswer mac a (cut (f.octets.drop q.at_) 8 16)
    let asker := cut f.octets 6 6
    some (padFrame (match vid with
      | none => asker ++ mac ++ beOctets 2 etIp6 ++ ip
      | some v => frameOf asker mac 0 v none etIp6 ip))
  else none

/-- FRAME_RECEIVED (R414) at port p: on a line that carries a link; with LPBK set the port hears only itself. Without a start, the
recovery loader hears its port (R576). -/
def execFrameReceived (p : Nat) (f : RxFrame) (s : State) : Host.Outcome State Fault Refusal :=
  if 4 ≤ p then .fault .noSuchUnit
  else .next (if !portEn s p || !portLink s p || s.cb (portBlk p) 20 || s.sys.heldInReset then
      (if !inRecovery s || s.sys.heldInReset then s
       else
        let s' := bringTo f.arrival s
        { s' with boot := { s'.boot with recNs := (loaderAnswer s p f).or s.boot.recNs } })
    else receiveFrame p f (bringTo f.arrival s))

/-! ### Transmission (R421) -/

/-- The frame on the line has been sent, and what follows it is queued; a looped one (LPBK) arrives with the stamp of its start
(R428, R440). -/
def completeFrame (p : Nat) (f : TxFrame) (s : State) : State :=
  let x := s.port p
  let s := (bringTo x.lineEnd s).modPort p fun x =>
    { x with onLine := none, pdSent := if isPdelayReq f.octets then some (u16 (f.octets.drop 14) 30, x.sfd) else x.pdSent }
  let s := pCount p 11 s
  let s := if f.frags = 0 then s else pCount p 12 s
  let s := match followUp s p f.octets x.sfd with
    | some os => queueFrame p 7 os none s
    | none => s
  if s.cb (portBlk p) 20 then
    receiveFrame p { octets := f.octets, fcsOk := true, fecBad := false, fragmented := decide (f.frags ≠ 0), fragBad := false,
                     arrival := x.sfd } s
  else s

/-- The frame that follows a preemption: the eligible express frame of the highest class, for which the preempted frame gave
way whatever its own class (R427); otherwise the selection of R421. -/
def selectAfterPreempt (p : Nat) (s : State) : State :=
  match ((List.range 8).map (7 - ·)).find? fun k => !preemptable s p k && startable s p k with
  | some k => startFrame p k s
  | none => selectFrame p s

/-- FRAME_TRANSMIT (R421): the frame on the line is preempted where R427 requires it, or ends; then the next is selected. A fragment
ends with its check and the gap, 16 octets, and a resumed one begins with the preamble, 8 octets (802.3br; log entry 81). -/
def execFrameTransmit (p : Nat) (s : State) : Host.Outcome State Fault Refusal :=
  if 4 ≤ p then .fault .noSuchUnit
  else .next (if !mayTransmit s p then s
    else match (s.port p).onLine with
    | none => selectFrame p s
    | some f =>
      if mustPreempt s p f then
        let s := bringTo (preemptPoint s p) s
        let left := (s.port p).lineEnd - s.net.devTime
        selectAfterPreempt p (bringTo (s.net.devTime + lineTime s p 16) (s.modPort p fun x =>
          { x with onLine := none, preempted := some { f with frags := f.frags + 1 }, preLeft := left + lineTime s p 8, preSfd := x.sfd,
                   preKept := x.gateKept }))
      else selectFrame p (completeFrame p f s))

/-! ### PUBLISH (R453, R454, R458, R460) -/

/-- The block records of a payload, none where they break R453 or do not fill it. -/
def parseBlocks : Nat → List Octet → Option (List Block)
  | 0, [] => some []
  | 0, _ => none
  | n + 1, os =>
    let h := u16 os 0
    let nd := h / 32768 = 1
    let nw := u8 os 2
    let len := 3 + packedLen nw
    if os.length < len ∨ h / 4096 % 8 ≠ 0 ∨ (nd ∧ nw ≠ 0) ∨ (¬ nd ∧ nw = 0) then none
    else (parseBlocks n (os.drop len)).map
      ({ block := h % 4096, nodata := nd, ws := unpackWords nw (cut os 3 (packedLen nw)) } :: ·)

/-- The length limit of R460 at the rate of a port. -/
def publishLimit (s : State) (p : Nat) : Nat := if s.cb (portBlk p) 1 then 1000 else 400

/-- The blocks of a PUBLISH, none where its payload breaks R453. -/
def publishBlocks (pl : List Octet) : Option (List Block) :=
  if pl.length < 10 || u8 pl 9 = 0 then none else parseBlocks (u8 pl 9) (pl.drop 10)

/-- The sample stamp of a PUBLISH. -/
def publishStamp (pl : List Octet) : Word × Word :=
  let st := unpackWords 2 (pl.take 9)
  (st.getD 0 0, st.getD 1 0)

/-- A PUBLISH with a block that some binding receives, beyond the length limit or fragmented (R460). -/
def publishOver (s : State) (x : SgIn) (bs : List Block) : Bool :=
  (bs.any fun y => (bindings s).any fun b => !b.tx && b.ses = x.ses && b.block = y.block)
    && (decide (publishLimit s x.port < x.frameLen) || x.fragmented)

/-- SEPTEG_PUBLISH (R458): the oldest PUBLISH; a block whose frame is still to be marked is held (R459). -/
def execSeptegPublish (s : State) : Host.Outcome State Fault Refusal :=
  .next (match nextIn s ttPublish with
    | none => s
    | some (x, s) =>
      match publishBlocks x.payload with
      | none => sgCount 1 s
      | some bs =>
        if publishOver s x bs then sgCount 6 s
        else
          let st := publishStamp x.payload
          bs.foldl (fun s y => placeBlock x.ses st.1 st.2 x.arrival y s) s)

/-! ### Output publishing (R462 to R464) -/

/-- The words of a transmit binding's block, where its activation committed and they can be read. -/
def readBlock (s : State) (n : OutNote) (x : Binding) : Option (List Word) :=
  if n.dropped then none
  else match areaOf s n.tenant n.outIdx with
    | none => none
    | some a =>
      if !a.has s x.off x.len || poisonedIn s (a.base + x.off) x.len then none else some (peeks s (a.base + x.off) x.len)

def blockOctets (x : Binding) (ws : Option (List Word)) : List Octet :=
  match ws with
  | some ws => beOctets 2 x.block ++ beOctets 1 ws.length ++ packWords ws
  | none => beOctets 2 (32768 + x.block) ++ [0]

/-- The lines that it lies in, where it is read. -/
def blockLines (s : State) (n : OutNote) (x : Binding) : List Nat :=
  if n.dropped then []
  else match areaOf s n.tenant n.outIdx with
    | none => []
    | some a => if a.has s x.off x.len then linesOf (a.base + x.off) x.len else []

/-- Octets of a frame of a session around its Septeg payload, FCS included, with or without an R-TAG. -/
def frameAround (s : State) (ses : Nat) (rtag : Bool) : Nat :=
  18 + (if rtag then 6 else 0) + (if sesIp6 s ses then 40 else 20) + 8 + 32 + 4

/-- The session's stream numbers the frames that it sends (R431). -/
def sesTags (s : State) (ses : Nat) : Bool := s.cb (rSes ses 1) 22 && s.cb (stBlk (sesF s ses 1 12 21) + 7) 0

/-- The payload octets that every sending port of the session admits. -/
def publishRoom (s : State) (ses : Nat) : Nat :=
  (sesPorts s ses).foldl (fun n p => min n (publishLimit s p - frameAround s ses (sesTags s ses))) 1408

/-- Packs block records into payloads of at most `room` octets after the ten of the head, 255 to a payload. -/
def packBlocks (room : Nat) : List (List Octet) → List (List Octet) → List (List (List Octet))
  | [], [] => []
  | acc, [] => [acc.reverse]
  | [], r :: t => packBlocks room [r] t
  | acc, r :: t =>
    if 10 + acc.flatten.length + r.length ≤ room ∧ acc.length < 255 then packBlocks room (r :: acc) t
    else acc.reverse :: packBlocks room [r] t

/-- The blocks of one session of a context: sent in PUBLISH frames, or delivered where the session is local (R464). Management and
partner sessions send no PUBLISH (R447). -/
def publishSes (ses t : Nat) (bs : List (Binding × Option (List Word))) (s : State) : State :=
  if !sesValid s ses || sesKind s ses = 1 || sesKind s ses = 2 then s
  else if sesKind s ses = 3 then
    bs.foldl (fun s b => placeBlock ses (timeHi t) (timeLo t) s.net.devTime
      { block := b.1.block, nodata := b.2.isNone, ws := b.2.getD [] } s) s
  else
    (packBlocks (publishRoom s ses) [] (bs.map fun b => blockOctets b.1 b.2)).foldl (fun s g =>
      sgSend ses ttPublish 0 0 (packWords [timeHi t, timeLo t] ++ beOctets 1 g.length ++ g.flatten) s) s

/-- The blocks that a notice announces. The engine reads the lines with RDO (R462). -/
def publishOut (n : OutNote) (s : State) : State :=
  let t := n.rel
  let dropped := n.dropped
  let xs := (bindings s).filter fun x => x.tx && x.ctx = n.ctx
  let s := if dropped || xs.isEmpty then s else descTouch .septeg n.tenant n.outIdx s
  let s := rdoLines .septeg (xs.flatMap (blockLines s n)).eraseDups s
  let bs := xs.map fun x => (x, readBlock s n x)
  let s := bs.foldl (fun s b => match b.2 with
    | some ws => sgCountN 13 ws.length s
    | none => if dropped then s else sgCount 15 s) s
  ((xs.map Binding.ses).eraseDups).foldl (fun s ses => publishSes ses t (bs.filter fun b => b.1.ses = ses) s) s

/-- OUTPUT_PUBLISH (R462, R463) for the oldest notice of context k. A standby sends no PUBLISH (R540). -/
def execOutputPublish (k : Nat) (s : State) : Host.Outcome State Fault Refusal :=
  if 16384 ≤ k then .fault .noSuchUnit
  else .next (match s.net.notices.find? fun n => n.ctx = k with
    | none => s
    | some n =>
      let s := s.modNet fun x => { x with notices := x.notices.erase n }
      if isStandby s then s else publishOut n s)

/-! ### READ and WRITE (R465, R466) -/

/-- The descriptor checks of a READ or WRITE: a status, or the first physical word. -/
def sgAccess (s : State) (ses : Nat) (write : Bool) (i off n : Nat) : Sum Nat Nat :=
  let t := sesTenant s ses
  let lvl := if sesRole s ses = 1 then 0 else 1
  match descRead s t i with
  | none => .inl 7
  | some (d0, d1) =>
    if descAbsent d1 || fld d1 6 17 ≠ t then .inl 4
    else if lvl < fld d1 18 19 || fld d1 0 2 ≠ tyData || !bit d1 (if write then 4 else 3) then .inl 5
    else if (extOk s d0 d1 lvl off n).isSome then .inl 6
    else .inr (fld d0 1 35 + off)

/-- The lane enables and words of one line of a WRITE. -/
def jobLine (j : SgJob) (l : Nat) : Nat × List Word :=
  (List.range 8).foldl (fun (p : Nat × List Word) k =>
    let a := 8 * l + k
    if j.first ≤ a ∧ a < j.first + j.count then (p.1 + 15 * 16 ^ k, p.2 ++ [j.words.getD (a - j.first) 0])
    else (p.1, p.2 ++ [0])) (0, [])

/-- Each job asks for its next line, where no request for the line is outstanding. -/
def jobsRun (s : State) : State :=
  s.net.jobs.foldl (fun s j =>
    match j.await, j.todo with
    | none, l :: t =>
      if reqOut s .septeg l then s
      else
        let k := if j.write then (let w := jobLine j l; if w.1 = full32 then ReqKind.wrl w.2 else .wrm w.1 w.2) else .rdo
        let s := s.modNet fun n => { n with jobs := n.jobs.map fun x => if x = j then { j with await := some l, todo := t, since := n.devTime } else x }
        request .septeg l j.tenant k s
    | _, _ => s) s

/-- A job ends with a status. -/
def jobEnd (j : SgJob) (status : Nat) (s : State) : State :=
  let s := s.modNet fun n => { n with jobs := n.jobs.erase j }
  let pl := if status = 0 && !j.write then packWords ((List.range j.count).map fun i => tget 0 j.got (j.first + i)) else []
  sgRespond j.ses (if j.write then ttWrite else ttRead) j.txid status pl s

/-- A line of a job has been answered. -/
def jobNext (j j' : SgJob) (s : State) : State :=
  let s := s.modNet fun n => { n with jobs := n.jobs.map fun x => if x = j then j' else x }
  if j'.todo.isEmpty then jobsRun (jobEnd j' 0 s) else jobsRun s

/-- A line arrives at the Septeg engine; a poisoned one ends the READ. -/
def septegData (l : Nat) (ws : List Word) (pois : Nat) (s : State) : State :=
  match s.net.jobs.find? fun j => j.await = some l && !j.write with
  | none => s
  | some j =>
    if pois ≠ 0 then jobsRun (jobEnd j 7 s)
    else
      let g := (List.zipWith Prod.mk (List.range 8) ws).foldl (fun g p => tset 0 g (8 * l + p.1) p.2) j.got
      jobNext j { j with await := none, got := g } s

/-- A write of the Septeg engine is acknowledged or fails. A read that its region refuses (R69) is answered as checks 6 and 7 are
(DEDUCED, log entry 30). -/
def septegAck (l : Nat) (failed : Bool) (s : State) : State :=
  match s.net.jobs.find? fun j => j.await = some l && (j.write || failed) with
  | none => s
  | some j => if failed then jobsRun (jobEnd j (if j.write then 8 else 6) s) else jobNext j { j with await := none } s

/-- SEPTEG_WRITE_UNANSWERED (R466): 64 µs have passed without an answer to a WRITE's line. -/
def execSeptegWriteUnanswered (s : State) : Host.Outcome State Fault Refusal :=
  .next (match s.net.jobs.find? fun j => j.await.isSome && j.write with
    | none => s
    | some j => jobsRun (jobEnd j 8 (bringTo (j.since + 64 * usU) s)))

/-- The limits on requests in progress (R466). -/
def jobsFull (s : State) (ses : Nat) : Bool :=
  decide (64 ≤ s.net.jobs.length) || decide (4 ≤ (s.net.jobs.filter fun j => j.ses = ses).length)

/-- A READ or WRITE that has passed check 6. -/
def accessIn (write : Bool) (x : SgIn) (s : State) : State :=
  let ty := if write then ttWrite else ttRead
  let no := fun (st : Nat) (s : State) => sgRespond x.ses ty x.txid st [] s
  let pl := x.payload
  let n := u16 pl 6
  let most := if write then 311 else 312
  let role := sesRole s x.ses
  if jobsFull s x.ses then no 1 (sgCount 14 s)
  else if pl.length < 8 || n = 0 || decide (most < n) || u8 pl 1 ≠ 0 || pl.length ≠ 8 + (if write then packedLen n else 0) then no 2 s
  else if role = 0 || (write && role = 1) || (write && isStandby s) then no 3 s
  else
  let s := descTouch .septeg (sesTenant s x.ses) (u8 pl 0) s
  match sgAccess s x.ses write (u8 pl 0) (beNat (cut pl 2 4)) n with
  | .inl st => no st s
  | .inr a =>
    let j : SgJob :=
      { ses := x.ses, txid := x.txid, write := write, first := a, count := n, words := unpackWords n (pl.drop 8), got := [],
        todo := linesOf a n, await := none, tenant := sesTenant s x.ses, since := 0 }
    jobsRun (s.modNet fun m => { m with jobs := m.jobs ++ [j] })

/-- SEPTEG_READ (R466). -/
def execSeptegRead (s : State) : Host.Outcome State Fault Refusal :=
  .next (match nextIn s ttRead with
    | none => s
    | some (x, s) => accessIn false x s)

/-- SEPTEG_WRITE (R466). -/
def execSeptegWrite (s : State) : Host.Outcome State Fault Refusal :=
  .next (match nextIn s ttWrite with
    | none => s
    | some (x, s) => accessIn true x s)

/-! ### MAILBOX, TIME, HEARTBEAT (R467 to R469) -/

def sgMbx (s : State) (ses : Nat) : SgMbx := tget .reset s.net.mbx ses
def setSgMbx (ses : Nat) (m : SgMbx) (s : State) : State := s.modNet fun n => { n with mbx := tset .reset n.mbx ses m }

/-- Another session's command is in the network mailbox of a session (R468, R483). -/
def mbxTaken (s : State) (ses : Nat) : Bool :=
  s.net.mbx.any fun p => decide (p.1 ≠ ses) && p.2.busy.isSome && decide (sesMbx s p.1 = sesMbx s ses)

/-- SEPTEG_MAILBOX (R468). -/
def execSeptegMailbox (s : State) : Host.Outcome State Fault Refusal :=
  .next (match nextIn s ttMailbox with
    | none => s
    | some (x, s) =>
      let m := sgMbx s x.ses
      let n := 2 * x.payload.length / 9
      let kept := match m.kept with
        | some (t, ws) => if t = x.txid then some ws else none
        | none => none
      match m.busy with
      | some t => if t = x.txid then s else sgRespond x.ses ttMailbox x.txid 9 [] (sgCount 14 s)
      | none =>
      match kept with
      | some ws => sgRespond x.ses ttMailbox x.txid 0 (packWords ws) s
      | none =>
        if mbxTaken s x.ses then sgRespond x.ses ttMailbox x.txid 9 [] (sgCount 14 s)
        else if n = 0 ∨ 312 < n ∨ packedLen n ≠ x.payload.length then sgRespond x.ses ttMailbox x.txid 2 [] s
        else enqueueCmd (.network x.ses) (unpackWords n x.payload) (setSgMbx x.ses { m with busy := some x.txid } s))

/-- MAILBOX_RESPONSE (R468): the posted result is sent and kept. -/
def execMailboxResponse (ses : Nat) (s : State) : Host.Outcome State Fault Refusal :=
  if 16384 ≤ ses then .fault .noSuchUnit
  else .next (
    let m := sgMbx s ses
    match m.ready, m.busy with
    | some ws, some t =>
      sgRespond ses ttMailbox t 0 (packWords ws) (setSgMbx ses { busy := none, kept := some (t, ws), ready := none } s)
    | _, _ => s)

/-- SEPTEG_TIME (R469). -/
def execSeptegTime (s : State) : Host.Outcome State Fault Refusal :=
  .next (match nextIn s ttTime with
    | none => s
    | some (x, s) =>
      if !x.payload.isEmpty then sgRespond x.ses ttTime x.txid 2 [] s
      else
        let now := s.net.devTime
        sgRespond x.ses ttTime x.txid 0
          (packWords [timeHi x.arrival, timeLo x.arrival] ++ packWords [timeHi now, timeLo now] ++ packWords [s.cg rDTSTAT]) s)

/-- SEPTEG_HEARTBEAT (R467). -/
def execSeptegHeartbeat (s : State) : Host.Outcome State Fault Refusal :=
  .next (match nextIn s ttHeartbeat with
    | none => s
    | some (x, s) => if x.payload.length ≠ 10 then sgCount 1 s else heartbeatIn x.ses x.payload s)

end Sys2Proof.Machine
end

