-- ==== Sys2Proof/Machine/Slow.lean ====
section
/-! DEFINITION. Welana's slow path: ARP, neighbour discovery, echo (R417), and gPTP as an 802.1AS end station (R438, R439). -/

namespace Sys2Proof.Machine

/-! ### Slow-path answers (R417) -/

/-- Takes the first waiting slow-path frame of a port that is, or is not, a gPTP frame. -/
def nextSlow (s : State) (p : Nat) (gptp : Bool) : Option (RxFrame × State) :=
  match (s.port p).slowQ.find? fun f => decide ((parseFrame f.octets).ety = etGptp) = gptp with
  | some f => some (f, s.modPort p fun x => { x with slowQ := x.slowQ.erase f })
  | none => none

def ownIp4 (s : State) (p : Nat) (a : List Octet) : Bool :=
  (List.range 4).any fun i => ip4Valid s p i && decide (portIp4 s p i = a)
def ownIp6 (s : State) (p : Nat) (a : List Octet) : Bool :=
  (List.range 4).any fun i => ip6Valid s p i && decide (portIp6 s p i = a)

/-- The answer to an ARP request for an address of the port: the reply's payload. -/
def arpReply (s : State) (p : Nat) (b : List Octet) : Option (List Octet) :=
  if u16 b 0 = 1 ∧ u16 b 2 = 0x0800 ∧ u8 b 4 = 6 ∧ u8 b 5 = 4 ∧ u16 b 6 = 1 ∧ ownIp4 s p (cut b 24 4) then
    some (cut b 0 6 ++ beOctets 2 2 ++ portMac s p ++ cut b 24 4 ++ cut b 8 6 ++ cut b 14 4)
  else none

/-- The answer to an ICMP echo request, as an IPv4 packet. -/
def echo4Reply (s : State) (p : Nat) (b : List Octet) : Option (List Octet) :=
  let ihl := 4 * (u8 b 0 % 16)
  let tl := u16 b 2
  let m := cut b ihl (tl - ihl)
  if u8 b 0 / 16 = 4 ∧ 20 ≤ ihl ∧ ihl + 8 ≤ tl ∧ tl ≤ b.length ∧ cksum (b.take ihl) = 0 ∧ u16 b 6 % 16384 = 0
      ∧ ownIp4 s p (cut b 16 4) ∧ u8 m 0 = 8 ∧ u8 m 1 = 0 ∧ cksum m = 0 then
    let r := fun (c : Nat) => [0, 0] ++ beOctets 2 c ++ m.drop 4
    some (ip4Of (cut b 16 4) (cut b 12 4) 1 64 (r (cksum (r 0))))
  else none

/-- The answer to a neighbour solicitation or an ICMPv6 echo request, as an IPv6 packet. -/
def icmp6Reply (s : State) (p : Nat) (b : List Octet) : Option (List Octet) :=
  let src := cut b 8 16
  let dst := cut b 24 16
  let m := cut b 40 (u16 b 4)
  if icmp6Ok b && u8 m 0 = 128 && ownIp6 s p dst then some (ip6Of dst src 58 64 (icmp6Of dst src 129 (m.drop 4)))
  else (ndTarget b).bind fun a => if ownIp6 s p a then some (ndAnswer (portMac s p) a src) else none

/-- SLOW_PATH_FRAME (R417): Welana answers the oldest one; what it does not answer is counted in RXSLOW. The answer leaves in
the class of the request (log entry 14). -/
def execSlowPathFrame (p : Nat) (s : State) : Host.Outcome State Fault Refusal :=
  if 4 ≤ p then .fault .noSuchUnit
  else .next (match nextSlow s p false with
    | none => s
    | some (f, s) =>
      let q := parseFrame f.octets
      let b := f.octets.drop q.at_
      let r := if q.ety = etArp then arpReply s p b else if q.ety = etIp4 then echo4Reply s p b else icmp6Reply s p b
      let pcp := if q.tagged then q.pcp else s.cf (portBlk p) 17 19
      match r with
      | some pl => queueFrame p pcp (frameOf (cut f.octets 6 6) (portMac s p) pcp (vidOf s p q) none q.ety pl) none s
      | none => pCount p 8 s)

/-! ### gPTP messages received (R438; 802.1AS, PRESUMED: log entry 33) -/

/-- A received timestamp; none when the upper twelve bits of the seconds are not zero (R438). -/
def ptpRead (os : List Octet) : Option Nat :=
  let sec := beNat (os.take 6)
  if sec < 2 ^ 36 then some (sec * secU + beNat (cut os 6 4) * 64) else none

/-- The priority vector of the device itself (802.1AS). -/
def ownVector (s : State) : List Octet :=
  beOctets 1 s.net.prio1 ++ [248, 0xFE, 0x43, 0x6A] ++ beOctets 1 s.net.prio2 ++ clockId s ++ [0, 0]

/-- The vector of an Announce, whose body begins at octet 34 of the message. -/
def annVector (m : List Octet) : List Octet := cut m 47 1 ++ cut m 48 4 ++ cut m 52 1 ++ cut m 53 8 ++ cut m 61 2

def octLt (a b : List Octet) : Bool := decide (beNat a < beNat b)

/-- Follows, or stops following, a grandmaster; SPORT of DTSTAT names its port. A device that follows another is no grandmaster. -/
def setGm (g : Option (Nat × List Octet)) (s : State) : State :=
  let s := s.modNet fun n =>
    { n with gm := g, goodSync := if g = n.gm then n.goodSync else 0, syncArr := none, gmAt := if g.isSome then n.devTime else n.gmAt }
  let s := if g.isSome && s.cf rDTSTAT 0 2 = 3 then s.csf rDTSTAT 0 2 0 else s
  s.csf rDTSTAT 3 6 (match g with
    | some (p, _) => 2 ^ (3 - p)
    | none => 0)

/-- The clock identity of a priority vector. -/
def vecClock (v : List Octet) : List Octet := cut v 6 8

/-- The master followed is unusable (R438). It stays so until the device is reset (DESIGN CHOICE: log entry 33). -/
def gmUnusable (s : State) : State :=
  match s.net.gm with
  | some (_, v) => setGm none (s.modNet fun n => { n with gmBad := vecClock v :: n.gmBad })
  | none => s

/-- An Announce: the better vector is followed, but for a master that is unusable. -/
def announceIn (p : Nat) (m : List Octet) (s : State) : State :=
  let v := annVector m
  if s.net.gmBad.contains (vecClock v) then s
  else match s.net.gm with
  | some (q, w) => if q = p || octLt v w then (if octLt v (ownVector s) then setGm (some (p, v)) s else setGm none s) else s
  | none => if octLt v (ownVector s) then setGm (some (p, v)) s else s

/-- OFFS: saturating, signed. -/
def setOffs (ns : Int) (s : State) : State :=
  let m : Int := 2 ^ 28 - 1
  s.cs rDTSTAT (setFld (s.cg rDTSTAT) 7 35 ((max (-m) (min m ns)) % (2 ^ 29 : Int)).toNat)

/-- The servo's new rate: a free value in the range of DTRATE (log entry 33). -/
def servoRate (s : State) : State :=
  let r := freeNext s
  let z : Int := Config.freeRate r.1
  r.2.cs rDTRATE (mkZ (max (-219902325) (min 219902325 z)))

/-- The servo on one offset, in units of device time (R439). -/
def servo (off : Int) (s : State) : State :=
  let ns := off / 64
  let s := setOffs ns s
  let good := decide (off.natAbs ≤ 100 * 64)
  let n := if good then s.net.goodSync + 1 else 0
  let s := s.modNet fun x => { x with goodSync := n }
  let far := s.cb rRUCTL 0 && decide (1000 * usU < off.natAbs)
  let sync := s.cf rDTSTAT 0 2
  let s := if far then
      (if sync = 4 then s else jEvent 0o406 0 [mkW (s.cf rDTSTAT 7 35)] (s.csf rDTSTAT 0 2 4))
    else if 8 ≤ n then s.csf rDTSTAT 0 2 1
    else if sync = 4 || sync = 3 then s.csf rDTSTAT 0 2 0
    else s
  if !s.cb rRUCTL 0 && decide (usU < off.natAbs) then stepTime ((s.net.devTime : Int) - off).toNat s
  else servoRate s

/-- A correction field in units of device time: it counts 2^-16 ns. -/
def corrOf (m : List Octet) : Int := sext 64 (beNat (cut m 8 8)) / 1024

/-- The offset of a Sync that arrived at instant `arr` with origin time `t`. -/
def syncOffset (p arr : Nat) (t : Nat) (corr : Int) (s : State) : State :=
  servo ((arr : Int) - ((t : Int) + corr + ((s.port p).delay : Int))) s

/-- The response to a peer delay request, with the stamp of the request; what follows it carries the response's own (`followUp`). -/
def pdelayResp (p : Nat) (m : List Octet) (arr : Nat) (s : State) : State :=
  queueFrame p 7 (gptpFrame s p 3 0x0200 0 (u16 m 30) 0x7F (ptpTime arr ++ cut m 20 10)) none s

/-- The answer names this port and its last request. -/
def pdelayMine (s : State) (p : Nat) (m : List Octet) : Bool :=
  cut m 44 10 = clockId s ++ beOctets 2 (p + 1) && (s.port p).pdSent.any fun r => r.1 = u16 m 30

/-- The delay of a link from the four stamps of a peer delay exchange and its corrections. -/
def linkDelay (t1 t2 t3 t4 : Nat) (corr : Int) : Nat := ((((t4 : Int) - t1) - ((t3 : Int) - t2) - corr) / 2).toNat

/-- A Pdelay_Resp: of one step it ends the measurement, of two it awaits its follow-up. -/
def pdelayIn (p : Nat) (m : List Octet) (arr : Nat) (s : State) : State :=
  match ptpRead (m.drop 34), (s.port p).pdSent with
  | some t2, some (seq, t1) =>
    if !pdelayMine s p m then s
    else s.modPort p fun x =>
      if u8 m 6 / 2 % 2 = 1 then { x with pdResp := some (seq, t2, corrOf m, arr) }
      else { x with delay := linkDelay t1 t2 t2 arr (corrOf m), pdResp := none }
  | _, _ => s

/-- Its Pdelay_Resp_Follow_Up. -/
def pdelayFollow (p : Nat) (m : List Octet) (s : State) : State :=
  match ptpRead (m.drop 34), (s.port p).pdSent, (s.port p).pdResp with
  | some t3, some (_, t1), some (seq, t2, corr, t4) =>
    if !pdelayMine s p m || seq ≠ u16 m 30 then s
    else s.modPort p fun x => { x with delay := linkDelay t1 t2 t3 t4 (corr + corrOf m), pdResp := none }
  | _, _, _ => s

/-- One gPTP message of domain 0 at port p; `slave` where the port is that of the master followed. -/
def gptpIn (p : Nat) (slave : Bool) (m : List Octet) (arrival : Nat) (s : State) : State :=
  let s := if slave && (u8 m 0 % 16 = 0 || u8 m 0 % 16 = 8) then s.modNet fun n => { n with gmAt := n.devTime } else s
  match u8 m 0 % 16 with
  | 0 =>
    if !slave then s
    else if u8 m 6 / 2 % 2 = 1 then s.modNet fun n => { n with syncArr := some (arrival, u16 m 30) }
    else match ptpRead (m.drop 34) with
      | some t => syncOffset p arrival t (corrOf m) s
      | none => gmUnusable s
  | 8 =>
    match s.net.syncArr with
    | some (arr, seq) =>
      if !slave || seq ≠ u16 m 30 then s
      else match ptpRead (m.drop 34) with
        | some t => syncOffset p arr t (corrOf m) (s.modNet fun n => { n with syncArr := none })
        | none => gmUnusable s
    | none => s
  | 11 => if m.length < 64 then s else announceIn p m s
  | 2 => pdelayResp p m arrival s
  | 3 => pdelayIn p m arrival s
  | 10 => pdelayFollow p m s
  | _ => s

/-- GPTP_FRAME_RECEIVED (R439): the oldest gPTP frame of port p, in domain 0. One of another domain, or too short for a header, ends
here and is not counted in RXSLOW (DESIGN CHOICE, log entry 104). -/
def execGptpFrameReceived (p : Nat) (s : State) : Host.Outcome State Fault Refusal :=
  if 4 ≤ p then .fault .noSuchUnit
  else .next (match nextSlow s p true with
    | none => s
    | some (f, s) =>
      let m := f.octets.drop (parseFrame f.octets).at_
      let slave := match s.net.gm with
        | some (q, _) => decide (q = p)
        | none => false
      if m.length < 34 || u8 m 4 ≠ 0 then s else gptpIn p slave m f.arrival s)

/-- PEER_DELAY_MEASUREMENT (R438): a peer delay request leaves on port p, and the measured delay of its link is `delay`, in units of
device time; an answer that comes as a frame of its own measures it again (log entry 33). -/
def execPeerDelayMeasurement (p delay : Nat) (s : State) : Host.Outcome State Fault Refusal :=
  if 4 ≤ p then .fault .noSuchUnit
  else .next (if portEn s p && portLink s p then
      let seq := (s.port p).pdSeq
      (queueFrame p 7 (gptpFrame s p 2 0 0 seq 0 (zeros 20)) none s).modPort p fun x =>
        { x with delay := delay, pdSeq := (seq + 1) % 65536 }
    else s)

/-- One sync interval in units of device time. -/
def syncInterval (s : State) : Nat :=
  let k := s.net.logSync
  if k ≤ 0 then secU / 2 ^ (-k).toNat else secU * 2 ^ k.toNat

/-- The Announce of the device as grandmaster, with itself as the path trace (802.1AS). -/
def announceBody (s : State) : List Octet :=
  zeros 13 ++ ownVector s ++ [0xA0] ++ beOctets 2 8 ++ beOctets 2 8 ++ clockId s

/-- Number n of the Syncs comes with an Announce: one in each second. -/
def announceDue (s : State) (n : Nat) : Bool := decide (n % 2 ^ (-s.net.logSync).toNat = 0)

/-- GPTP_SYNC_SEND (R438, R439): a device that follows no master and may be one sends a two-step Sync on every enabled port with
a link, and reports itself grandmaster. -/
def execGptpSyncSend (s : State) : Host.Outcome State Fault Refusal :=
  .next (if s.net.gm.isSome || decide (255 ≤ s.net.prio1) then s
    else
      let s := (s.csf rDTSTAT 0 2 3).cs rDTRATE 0
      let seq := s.net.syncSeq
      let log := (s.net.logSync % 256).toNat
      let s := ((List.range 4).filter fun p => portEn s p && portLink s p).foldl (fun s p =>
        let s := if announceDue s seq then queueFrame p 7 (gptpFrame s p 11 8 0 seq 0 (announceBody s)) none s else s
        queueFrame p 7 (gptpFrame s p 0 0x0200 0 seq log (zeros 10)) none s) s
      s.modNet fun n => { n with syncSeq := (seq + 1) % 65536 })

/-- GPTP_MASTER_LOST (R439): the slave port has lost its master for three sync intervals; also a master that was given up, where the
device has not become the grandmaster. -/
def execGptpMasterLost (s : State) : Host.Outcome State Fault Refusal :=
  .next (if s.net.gm.isNone && !(s.cf rDTSTAT 0 2 = 1 || s.cf rDTSTAT 0 2 = 4) then s
    else
      let s := bringTo (s.net.gmAt + 3 * syncInterval s) s
      (setGm none s).csf rDTSTAT 0 2 2)

end Sys2Proof.Machine
end

