-- ==== Sys2Proof/Machine/Halt.lean ====
section
/-! DEFINITION. Halting and releasing engines, and stop-all (R592 to R604). -/

namespace Sys2Proof.Machine

/-! ### Grants (R593, R603, R605) -/

/-- Bit i of RIGHTS: 0 RD, 1 WR, 2 HALT, 3 REG. -/
def grantRight (g : GrantTok) (i : Nat) : Bool := decide (g.rights / 2 ^ (7 - i) % 2 = 1)

/-- The lowest grant in effect for a tenant that holds a right. -/
def grantFor (s : State) (t right : Nat) : Option Nat :=
  (s.wel.grants.find? fun p => match p.2 with
    | some g => g.tenant = t && grantRight g right
    | none => false).map Prod.fst

/-- The debugger reaches the whole device (R584). -/
def wholeReach (s : State) : Bool := lifeState s = 0 || lifeState s = 3

/-- A halt request reaches engine g: in SERVICE, one that runs an activation of a tenant of a grant with the right HALT
(R584, R603). -/
def haltReach (s : State) (g : Nat) : Bool :=
  wholeReach s || (lifeState s = 2 && (s.e g).act && (grantFor s (s.e g).tenant 2).isSome)

/-! ### Halt (R596, R597) -/

/-- A halt is requested with a cause; the engine leaves Pearl (R610); one in Slate, when its cluster wakes (R613). -/
def haltRequest (cause g : Nat) (s : State) : State :=
  let e := s.e g
  if !e.run.inService || e.run.halted || e.run.haltReq.isSome then s
  else haltDue g cause 0 (s.modE g fun e => e.modRun fun r => { r with pearl := r.pearl && s.sys.slate.contains (g / 12) })

/-- The halt is taken: DSTAT, the reservation, the deadline held under PFRZ, and in SERVICE the grant under which it was
made. -/
def takeHalt (e cause unit : Nat) (s : State) : State :=
  let s := resvClear e s
  let g := s.e e
  let gr := if lifeState s = 2 && g.act then (grantFor s g.tenant 2).getD 0 else 0
  let held := if wholeReach s && bit (g.dbgE 0o60) 14 then g.run.entry.map fun x => x.deadline - s.net.devTime else none
  s.modE e fun g =>
    let g := g.modRegs fun r =>
      { r with dstat := place 0 0 1 ||| place 1 4 cause ||| place 5 6 unit ||| place 8 35 r.pc }
    (g.modPipe fun p => { p with held := false }).modRun fun r =>
      { r with halted := true, haltReq := none, stepMode := .run, haltGrant := gr, dlHeld := held, pearl := false }

/-- HALT_TAKEN (R596, R597): a due halt is taken at an eligible boundary, once the outstanding results have landed and every
retired store-buffer entry has drained. The engine issues nothing before it. -/
def execHaltTaken (e : Nat) (s : State) : Host.Outcome State Fault Refusal :=
  onEngine e true
    (let g := s.e e
     match g.run.haltReq with
     | none => s
     | some (c, u) =>
       if g.run.halted || !haltNow g || g.run.stall.isSome || g.pipe.exc.isSome || g.run.stealing || g.run.cphase ≠ .idle
         || !g.run.inService || g.run.inReset || s.sys.slate.contains (e / 12) then s
       else
         let s := waitTo e g.lastLanding s
         if g.mem.sb.isEmpty then takeHalt e c u s else s.modE e Engine.sbClose)

/-! ### Commands of the debug block (R603, R604) -/

def rDSTOP : Nat := dbgBlk + 1

/-- DHCMD (R603): HALT and REL of engine g; false where the lifecycle state or the grants do not let it reach the engine. -/
def haltCommand (g : Nat) (halt rel : Bool) (s : State) : Bool × State :=
  if rel then
    if wholeReach s || (s.e g).run.haltGrant ≠ 0 then (true, releaseEngine g none s) else (false, s)
  else if halt then
    if haltReach s g then (true, haltRequest 1 g s) else (false, s)
  else (true, s)

/-- DEBUG_HALT_REQUEST (R596). -/
def execDebugHaltRequest (g : Nat) (s : State) : Host.Outcome State Fault Refusal :=
  onEngine g true
    (let r := haltCommand g true false s
     { r.2 with answer := if r.1 then .ok else .failed 2 })

/-- DEBUG_RELEASE (R598). -/
def execDebugRelease (g : Nat) (s : State) : Host.Outcome State Fault Refusal :=
  onEngine g true
    (let r := haltCommand g false true s
     { r.2 with answer := if r.1 then .ok else .failed 2 })

/-- Boundaries whose staging interval has begun are skipped (R275, R604). -/
def skipBegun (s : State) : State :=
  (ctxList s).foldl (fun s k =>
    if perOk s k && decide (ctxNext s k < firstBoundary s k) then s.cs2 (rCtx k 13) (firstBoundary s k) else s) s

/-- A write of 1 to STOP (R604). -/
def stopDevice (s : State) : Option Nat × State :=
  if lifeState s ≠ 3 then (some 2, s)
  else
    let s := (s.csf rDSTOP 0 0 1).modRel fun r => { r with stopped := true }
    (none, (List.range 144).foldl (fun s e => haltRequest 2 e s) s)

/-- A write of 0 to STOP. -/
def resumeDevice (s : State) : State :=
  if !stopAll_ s then s
  else
    let s := (s.csf rDSTOP 0 0 0).modRel fun r => { r with stopped := false }
    let s := (List.range 144).foldl (fun s e =>
      releaseEngine e none (s.modE e fun g => g.modRun fun r =>
        { r with haltReq := match r.haltReq with
            | some (2, _) => none
            | h => h })) s
    (List.range 12).foldl (fun s c => moverRun c s) (skipBegun s)

/-- A write of DSTOP. -/
def dstopWrite (w : Word) (s : State) : Option Nat × State := if bit w 0 then stopDevice s else (none, resumeDevice s)

/-- STOP_ALL (R604). -/
def execStopAll (s : State) : Host.Outcome State Fault Refusal := .next (answered (stopDevice s))

/-- STOP_ALL_RESUME (R604). -/
def execStopAllResume (s : State) : Host.Outcome State Fault Refusal := .next (answered (none, resumeDevice s))

/-- STOPPED: every engine in service is halted. -/
def allHalted (s : State) : Bool := (List.range 144).all fun e => !(s.e e).run.inService || (s.e e).run.halted

end Sys2Proof.Machine
end

