-- ==== Sys2Proof/Machine/Image.lean ====
section
/-! DEFINITION. Signed images (R556 to R561), minimum versions and the epoch (R573 to R575), the fuses and the lifecycle
(R551, R581, R582). -/

namespace Sys2Proof.Machine

def State.modBoot (s : State) (f : Boot → Boot) : State := { s with boot := f s.boot }
def State.modOtp (s : State) (f : Otp → Otp) : State := s.modBoot fun b => { b with otp := f b.otp }

/-! ### Image header (R556, R558) -/

def imgKind (w : List Octet) : Nat := u8 w 5
def imgNsig (w : List Octet) : Nat := u8 w 6
def imgClass (w : List Octet) : Nat := u8 w 7
def imgVersion (w : List Octet) : Nat := u16 w 8 % 4096
def imgEpoch (w : List Octet) : Nat := u8 w 10
def imgRaise (w : List Octet) : Bool := decide (128 ≤ u8 w 11)
/-- REVOKE: whether it names slot n. -/
def imgRevokes (w : List Octet) (n : Nat) : Bool := decide (u8 w 12 % 16 / 2 ^ (3 - n) % 2 = 1)
def imgBodyLen (w : List Octet) : Nat := beNat (cut w 16 4)
def imgBodyAt (w : List Octet) : Nat := 256 + 7424 * imgNsig w
def imgBody (w : List Octet) : List Octet := cut w (imgBodyAt w) (imgBodyLen w)
def imgSize (w : List Octet) : Nat := imgBodyAt w + imgBodyLen w

/-- MCACC of a mantle accepts a timing class. -/
def mcAccepts (mcacc c : Nat) : Bool := decide (c < 8 ∧ mcacc / 2 ^ (7 - c) % 2 = 1)

/-! ### Signer blocks (R557, R559) -/

/-- The two classes of root keys: vendor and owner. -/
inductive SignClass where
  | vendor | owner
deriving DecidableEq, Repr

/-- The class that a kind requires (R560). -/
def kindClass (k : Nat) : SignClass := if k = 3 ∨ k = 4 then .owner else .vendor

/-- The fused slot value, none where the slot is not programmed: all zero (R551). -/
def slotValue (s : State) (c : SignClass) (n : Nat) : Option (List Octet) :=
  let v := match c with
    | .vendor => otpVkey n
    | .owner => s.boot.otp.okey n
  if v.all (· = 0) then none else some v

/-- VREV or OREV revokes slot n. -/
def slotRevoked (s : State) (c : SignClass) (n : Nat) : Bool :=
  let v := match c with
    | .vendor => s.boot.otp.vrev
    | .owner => s.boot.otp.orev
  decide (v / 2 ^ (3 - n) % 2 = 1)

/-- A signer block passes for a class over the digest d. -/
def signerOk (s : State) (c : SignClass) (d b : List Octet) : Bool :=
  let n := u8 b 0 % 4
  decide (u8 b 0 / 128 = if c = .owner then 1 else 0)
    && (match slotValue s c n with
      | some v => decide (sha384 (cut b 4 2689) = v)
      | none => false)
    && !slotRevoked s c n && Config.ecdsaOk (cut b 4 97) d (cut b 2693 96) && Config.mldsaOk (cut b 101 2592) d (cut b 2789 4627)

/-- The signer blocks of an image. -/
def signers (w : List Octet) : List (List Octet) := (List.range (imgNsig w)).map fun i => cut w (256 + 7424 * i) 7424

/-- The slots whose signer block passed in an image. -/
def passedSlots (s : State) (w : List Octet) : List Nat :=
  ((signers w).filter (signerOk s (kindClass (imgKind w)) (sha384 (w.take 256)))).map fun b => u8 b 0 % 4

/-- MINVER of a kind in force; 1 for the kinds without one (R559, R574). -/
def minVer (s : State) (k : Nat) : Nat := s.boot.minver.getD k 1

/-- The boot sequencer's verification (R559): 0 for a pass, else the failure. -/
def verifyImage (s : State) (w : List Octet) (k : Nat) : Nat :=
  if w.take 4 ≠ [0o101, 0o130, 0o111, 0o115] ∨ u8 w 4 ≠ 1 ∨ u16 w 68 % 4096 ≠ 0o7034 ∨ imgKind w ≠ k
    ∨ ¬ (imgNsig w = 1 ∨ imgNsig w = 2) ∨ w.length < imgSize w then 1
  else if (passedSlots s w).isEmpty then 2
  else if sha384 (imgBody w) ≠ cut w 20 48 then 3
  else if 64 < imgEpoch w ∨ imgEpoch w < s.boot.otp.epoch ∨ imgVersion w < minVer s k then 4
  else 0

/-! ### What fuses show (R551, R581, R582) -/

/-- LCSTAT's copies of the fuses, and its STATE. -/
def lifeSync (s : State) : State :=
  let o := s.boot.otp
  let prog := (List.range 4).foldl (fun m n => if (slotValue s .owner n).isSome then m + 2 ^ (3 - n) else m) 0
  let st := if s.boot.lifeOpen then 3 else if !s.boot.lifeSealed then 0 else if s.wel.grants.any fun p => p.2.isSome then 2 else 1
  ((((s.csf bootBlk 0 1 st).csf bootBlk 5 8 o.vrev).csf bootBlk 9 12 o.orev).csf bootBlk 13 16 prog).csf bootBlk 17 23 o.epoch

/-- The revocations of an image that takes effect (R561). -/
def revokeFuses (w : List Octet) (s : State) : State :=
  let c := kindClass (imgKind w)
  let ns := (List.range 4).filter fun n => imgRevokes w n && !(passedSlots s w).contains n && !slotRevoked s c n
  let add := (ns.map fun n => 2 ^ (3 - n)).sum
  lifeSync (s.modOtp fun o => match c with
    | .vendor => { o with vrev := o.vrev + add }
    | .owner => { o with orev := o.orev + add })

/-! ### Version records (R573 to R575) -/

/-- Octets 0 to 63 of a version record copy (R573). -/
def VersionRec.octets (v : VersionRec) : List Octet :=
  v.magic ++ beOctets 1 v.copy ++ beOctets 1 v.epoch ++ zeros 2 ++ beOctets 8 v.seq ++ v.minver.flatMap (beOctets 2) ++ zeros 40

def vrecMagic : List Octet := [0o126, 0o122, 0o103, 0o104]

/-- Copy i with its MAC. -/
def newVrec (s : State) (i epoch seq : Nat) (minver : List Nat) : VersionRec :=
  let v : VersionRec := { magic := vrecMagic, copy := i, epoch := epoch, seq := seq, minver := minver, mac := [] }
  { v with mac := hmac384 (macKey s) v.octets }

/-- A copy is acceptable; none is in OPEN state (R574). -/
def vrecOk (s : State) (v : VersionRec) : Bool :=
  decide (v.magic = vrecMagic) && !s.boot.otp.dusOff && decide (v.epoch = s.boot.otp.epoch) && decide (v.mac = hmac384 (macKey s) v.octets)

/-- The copy that the boot sequencer chooses. -/
def vrecChosen (s : State) : Option Nat :=
  let g := fun (i : Nat) => tget .erased s.boot.vrecs i
  match vrecOk s (g 0), vrecOk s (g 1) with
  | true, true => some (if (g 0).seq < (g 1).seq then 1 else 0)
  | true, false => some 0
  | false, true => some 1
  | false, false => none

/-- The minima in force at a start. -/
def loadMinver (s : State) : State :=
  s.modBoot fun b => { b with minver := match vrecChosen s with
    | some i => (tget .erased b.vrecs i).minver
    | none => [1, 1, 1, 1] }

/-- The raise of an image with RAISE that takes effect (R575). -/
def raiseMin (w : List Octet) (s : State) : State :=
  let k := imgKind w
  let mv := if k < 4 then s.boot.minver.set k (max (minVer s k) (imgVersion w)) else s.boot.minver
  let ep := max s.boot.otp.epoch (imgEpoch w)
  if !imgRaise w || (mv = s.boot.minver && ep = s.boot.otp.epoch) then s
  else
    let c := vrecChosen s
    let i := match c with
      | some 0 => 1
      | some _ => 0
      | none => 0
    let seq := (c.map fun j => (tget .erased s.boot.vrecs j).seq).getD 0 + 1
    let v := newVrec s i ep seq mv
    flashWrite .bootSequencer (.vrec i) (fun s =>
      lifeSync ((s.modBoot fun b => { b with vrecs := tset .erased b.vrecs i v, minver := mv }).modOtp fun o => { o with epoch := ep })) s

/-- An image takes effect: its revocations and its raise. -/
def imageEffect (w : List Octet) (s : State) : State := raiseMin w (revokeFuses w s)

/-! ### Boot slots (R565) -/

/-- The images of kinds 0, 1 and 2 of a slot: its boot set. -/
structure BootSet where
  mantle : List Octet
  welana : List Octet
  vendor : List Octet
deriving DecidableEq, Repr

def slotMagic : List Octet := [0o123, 0o114, 0o117, 0o124]

/-- The octets of boot slot i. -/
def slotAt (s : State) (i : Nat) : List Octet := tget [] s.boot.slots i

/-- MAGIC is good. -/
def slotGood (o : List Octet) : Bool := decide (o.take 4 = slotMagic)

/-- SSEQ of a slot with a good MAGIC; 0 for any other, which has none. -/
def slotSeq (o : List Octet) : Nat := if slotGood o then beNat (cut o 4 8) else 0

/-- COUNT, and the octets that are zero. -/
def dirOk (o : List Octet) : Bool :=
  decide (u8 o 12 = 3) && (cut o 13 3).all (· = 0) && (List.range 3).all fun i => (cut o (17 + 12 * i) 3).all (· = 0)

/-- The image of one kind by the directory; none where the directory is not as laid out. -/
def dirImage (o : List Octet) (kind : Nat) : List Octet :=
  match if dirOk o then (List.range 3).find? fun i => u8 o (16 + 12 * i) = kind else none with
  | some i => cut o (beNat (cut o (20 + 12 * i) 4)) (beNat (cut o (24 + 12 * i) 4))
  | none => []

def slotSet (o : List Octet) : BootSet := { mantle := dirImage o 0, welana := dirImage o 1, vendor := dirImage o 2 }

/-- A slot with a boot set: its directory, then the images one after another. -/
def slotOctets (seq : Nat) (b : BootSet) : List Octet :=
  let n0 := b.mantle.length
  let n1 := b.welana.length
  let ent := fun (k at_ n : Nat) => beOctets 1 k ++ zeros 3 ++ beOctets 4 at_ ++ beOctets 4 n
  (slotMagic ++ beOctets 8 seq ++ [3, 0, 0, 0] ++ ent 0 4096 n0 ++ ent 1 (4096 + n0) n1 ++ ent 2 (4096 + n0 + n1) b.vendor.length
    ++ eraseOctets 4044 ++ b.mantle ++ b.welana ++ b.vendor).take (8 * mib)

/-! ### The owner image area (R572) -/

/-- An image of the owner area. -/
structure OwnerImg where
  kind : Nat
  index : Nat
  tenant : Nat
  image : List Octet
deriving DecidableEq, Repr

def OwnerImg.octets (x : OwnerImg) : List Octet :=
  beOctets 1 x.kind ++ beOctets 1 x.index ++ beOctets 2 x.tenant ++ beOctets 4 x.image.length ++ x.image

/-- A half: SEQ, the records, and the KIND that ends it. -/
def ownerOctets (seq : Nat) (xs : List OwnerImg) : List Octet := beOctets 8 seq ++ xs.flatMap OwnerImg.octets ++ [0xff]

/-- The records of a half after its SEQ; none where they do not parse. -/
def parseOwner : Nat → List Octet → Option (List OwnerImg)
  | 0, _ => none
  | f + 1, o =>
    let n := beNat (cut o 4 4)
    if o = [] then none
    else if u8 o 0 = 0xff then some []
    else if (u8 o 0 ≠ 3 ∧ u8 o 0 ≠ 4) ∨ o.length < 8 + n then none
    else (parseOwner f (o.drop (8 + n))).map fun xs =>
      { kind := u8 o 0, index := u8 o 1, tenant := u16 o 2 % 4096, image := cut o 8 n } :: xs

/-- SEQ and images of half i; none where the half is erased, its SEQ is not yet programmed or its records do not parse (log
entry 92). -/
def ownerHalf (s : State) (i : Nat) : Option (Nat × List OwnerImg) :=
  let o := tget [] s.boot.owner i
  let q := beNat (o.take 8)
  if q = 2 ^ 64 - 1 then none else (parseOwner o.length (o.drop 8)).map fun xs => (q, xs)

/-- The half in use: the larger SEQ. -/
def ownerUse (s : State) : Option (Nat × Nat × List OwnerImg) :=
  match ownerHalf s 0, ownerHalf s 1 with
  | some a, some b => if a.1 < b.1 then some (1, b) else some (0, a)
  | some a, none => some (0, a)
  | none, some b => some (1, b)
  | none, none => none

/-- The images that the area holds. -/
def ownerSet (s : State) : List OwnerImg := ((ownerUse s).map fun p => p.2.2).getD []

/-- The whole set goes into the other half, SEQ last; a set that a half cannot hold is not written (log entry 92). -/
def writeOwner (xs : List OwnerImg) (s : State) : State :=
  let u := ownerUse s
  let i := match u with
    | some (0, _) => 1
    | _ => 0
  let o := ownerOctets ((u.map fun p => p.2.1).getD 0 + 1) xs
  if FlashArea.owner.place.2 / 2 < o.length then s
  else flashWrite .management .owner (fun s => s.modBoot fun b => { b with owner := tset [] b.owner i o }) s

/-- The images that p names leave the set. -/
def dropOwner (p : OwnerImg → Bool) (s : State) : State :=
  if (ownerSet s).any p then writeOwner ((ownerSet s).filter fun x => !p x) s else s

/-! ### FCMD (R581) -/

def rFSTAT : Nat := bootBlk + 3

/-- The end of an FCMD: FSTAT.ERR. -/
def fcmdEnd (err : Nat) (s : State) : State := s.csf rFSTAT 1 6 err

def fdata (s : State) (i n : Nat) : List Word := s.cgs (bootBlk + 0o10 + i) n

/-- Programs an owner slot from FDATA. -/
def fuseOwner (n : Nat) (s : State) : State :=
  if lifeState s ≠ 0 then fcmdEnd 1 s
  else if (slotValue s .owner n).isSome then fcmdEnd 2 s
  else fcmdEnd 0 (lifeSync (s.modOtp (Otp.program fun c => { c with okeys := tset [] c.okeys n (octetsOf (fdata s 0 12)) })))

def provMagic : List Octet := [0o120, 0o122, 0o117, 0o126]

/-- Octets 0 to 63 of the provisioning record. The places of port, rate and VID in octets 5 to 9: DESIGN CHOICE, log entry 84. -/
def Provision.octets (p : Provision) : List Octet :=
  p.magic ++ beOctets 1 p.fmt ++ beOctets 1 p.port ++ beOctets 1 p.rate ++ zeros 1 ++ beOctets 2 p.vid ++ zeros 6 ++ p.wkey ++ p.salt ++ zeros 4

/-- A provisioning record with its MAC. -/
def newProv (s : State) (port rate vid : Nat) (key salt : List Octet) : Provision :=
  let p : Provision := { magic := provMagic, fmt := 1, port := port, rate := rate, vid := vid, wkey := aesWrap (storeKey s) key,
                         salt := salt, mac := [] }
  { p with mac := hmac384 (macKey s) p.octets }

/-- The provisioning record's MAC is good (R576). -/
def provOk (s : State) : Bool :=
  decide (s.boot.prov.magic = provMagic ∧ s.boot.prov.fmt = 1) && decide (s.boot.prov.mac = hmac384 (macKey s) s.boot.prov.octets)

/-- Writes the provisioning record and blows SEALED. The fuse takes effect at the next device reset. -/
def fuseSeal (s : State) : State :=
  if lifeState s ≠ 0 then fcmdEnd 1 s
  else if !((List.range 4).any fun n => (slotValue s .owner n).isSome) then fcmdEnd 3 s
  else
    let w9 := (fdata s 9 1).headD 0
    let p := newProv s (fld w9 0 1) (fld w9 2 2) (fld w9 3 14) (octetsOf (fdata s 0 8)) (octetsOf (fdata s 8 1))
    fcmdEnd 0 (flashWrite .bootSequencer .prov (fun s => s.modBoot fun b => { b with prov := p }) s |>.modOtp
      (Otp.program fun c => { c with sealed := true }))

/-- Verifies the lifecycle token in TOKBUF and blows OPEN; with that the token takes effect, and so do its revocations (R561; log
entry 84). -/
def fuseOpen (s : State) : State :=
  if !(lifeState s = 1 || lifeState s = 2) then fcmdEnd 1 s
  else
    let w := octetsOf (s.cgs (bootBlk + 0o4000) 2048)
    if verifyImage s w 5 ≠ 0 || (unpackWords 2 (imgBody w)).foldl (fun a x => a * 2 ^ 36 + x.toNat) 0 ≠ otpSerial then fcmdEnd 4 s
    else fcmdEnd 0 (revokeFuses w (s.modOtp (Otp.program fun c => { c with openF := true })))

/-- A write of FCMD. -/
def fcmd (w : Word) (s : State) : State :=
  match fld w 0 2 with
  | 1 => fuseOwner (fld w 3 4) s
  | 2 => fuseSeal s
  | 3 => fuseOpen s
  | _ => s

end Sys2Proof.Machine
end

