-- ==== Sys2Proof/Machine/Window.lean ====
section
/-! DEFINITION. Accesses to the control window (R12, R60 to R62): reads with their side effects, writes by agent with the rules
of each block, and the rows that make them. -/

namespace Sys2Proof.Machine

/-! ### Reading (R12, R299, R592) -/

/-- The deepest power state that the whole device holds (R608), encoded as DEEP: over the engines in service. -/
def devPower (s : State) : Nat :=
  let es := (List.range 144).filter fun e => (s.e e).run.inService && !(s.e e).run.inReset
  if s.sys.sable then 3
  else if es.isEmpty then 0
  else if es.all fun e => s.sys.slate.contains (e / 12) then 2
  else if es.all fun e => (s.e e).run.pearl then 1
  else 0

/-- What the word at an offset shows: mirrored status, device time and boot SRAM live elsewhere in the state. -/
def cwWord (s : State) (off : Nat) : Word :=
  if bootSramBlk ≤ off then tget 0 s.mem.bootSram (off - bootSramBlk)
  else if off = ethBlk + 0o40010 then timeHi s.net.devTime
  else if off = ethBlk + 0o40011 then timeLo s.net.devTime
  else if off = rPAIRSTAT then setFld (s.cg off) 12 35 (pairLag s)
  else if off = rPWRSTAT then setFld (s.cg off) 0 1 (devPower s)
  else if off = rDSTOP then setBit (s.cg off) 1 (allHalted s)
  else if dbgBlk + 0o100 < off ∧ off < dbgBlk + 0o100 + 288 ∧ off % 2 = 1 then (s.e ((off - dbgBlk - 0o101) / 2)).regs.dstat
  else s.cg off

/-- The bits of a word that a read returns. -/
def RegAcc.seen (a : RegAcc) : Word := a.ro ||| a.rw ||| a.w1c ||| a.rc

/-- A read-clears field that spans a double: the port counters and the counters of the Septeg engine (R441, R475). -/
def dblClears (off : Nat) : Bool :=
  decide (ethBlk ≤ off ∧ off < ethBlk + 0o40000 ∧ 0o300 ≤ off % 0o10000 ∧ off % 0o10000 < 0o334)
    || decide (ethBlk + 0o700000 ≤ off ∧ off < ethBlk + 0o700040)

/-- The read-clears fields of n words that have been read take their reset value. -/
def cwClear (off n : Nat) (s : State) : State :=
  (List.range n).foldl (fun s k =>
    match ctlAcc (off + k) with
    | some a =>
      if dblClears (off + k) && !(n = 2 && off % 2 = 0) then s
      else s.cs (off + k) ((s.cg (off + k) &&& ~~~ a.rc) ||| (ctlReset (off + k) &&& a.rc))
    | none => s) s

/-- A read of a word, or of a double as one: none where an offset is unassigned (R60). -/
def cwRead (clear : Bool) (off : Nat) (dbl : Bool) (s : State) : Option (List Word) × State :=
  let n := if dbl then 2 else 1
  match (List.range n).mapM fun k => (ctlAcc (off + k)).map fun a => cwWord s (off + k) &&& a.seen with
  | none => (none, s)
  | some ws => (some ws, if clear then cwClear off n s else s)

/-- What an agent reads: the debug mailbox is for the debug bus master alone (R485). -/
def agRead (ag : Agent) (clear : Bool) (off : Nat) (dbl : Bool) (s : State) : Option (List Word) × State :=
  if ag ≠ .debug ∧ dbgOnly off then (none, s) else cwRead clear off dbl s

/-- A read by an agent clears read-clears fields, unless an activation or the debug bus master makes it (R299, R592). -/
def readClears (s : State) : Agent → Bool
  | .engine e => !(s.e e).act
  | .debug => false
  | _ => true

/-! ### Plain writing -/

/-- The word after a write (R12). -/
def RegAcc.write (a : RegAcc) (old w : Word) : Word :=
  (old &&& ~~~ (a.rw ||| a.w1c)) ||| (w &&& a.rw) ||| (old &&& a.w1c &&& ~~~ w)

/-- The result of a write: accepted, or the cause of its failure. -/
abbrev CwRes := Option Nat × State

/-- A write to a register without behaviour of its own. -/
def plainW (off : Nat) (w : Word) (s : State) : CwRes :=
  match ctlAcc off with
  | none => (some 2, s)
  | some a => (none, s.cs off (a.write (s.cg off) w))

/-- A write that fails changes nothing. -/
def failIf (b : Bool) (r : CwRes) (s : State) : CwRes := if b then (some 2, s) else r

def accepted (r : CwRes) (f : State → State) : CwRes :=
  match r.1 with
  | none => (none, f r.2)
  | some c => (some c, r.2)

/-! ### Global block (R64 to R67, R86, R121, R356) -/

/-- A write to RSVCFG clears every reservation (R121). -/
def rsvcfgW (w : Word) (s : State) : CwRes :=
  accepted (plainW rRSVCFG w s) fun s => (List.range 144).foldl (fun s e => resvClear e s) s

/-- R356: neither the primary nor the shadow area leaves populated DRAM or meets the program region. Areas of SIZE 0 meet nothing and
must still lie below D (DESIGN CHOICE, log entry 100). -/
def mirOk (s : State) (w : Word) : Bool :=
  let b := fld w 0 17 * 65536
  let z := fld w 18 35 * 65536
  let p := s.cf rPRGBND 0 17 * 65536
  let n := s.cf rPRGBND 18 35 * 65536
  let apart := fun (a : Nat) => decide (a + z ≤ p ∨ p + n ≤ a ∨ n = 0 ∨ z = 0)
  decide (b + 2 * z + 128 ≤ dramWords s) && apart b && apart (b + z + 128)

def globalW (m : Bool) (o : Nat) (w : Word) (s : State) : CwRes :=
  if o = 3 then failIf (!m) (rsvcfgW w s) s
  else if o = 4 then
    failIf (!m || s.cf rMEMCFG 0 2 = 0 || decide (dramWords s < (fld w 0 13 + 1) * 2097152)) (plainW o w s) s
  else if o = 5 then failIf (!m || s.cf rMIRBND 18 35 ≠ 0 || !mirOk s w) (plainW o w s) s
  else if o = 2 ∨ 0o100 ≤ o then failIf (!m) (plainW o w s) s
  else plainW o w s

/-! ### Always-on block (R617) -/

/-- PWRCTL: the operating point follows OPT; a change wakes every cluster in Slate (R613). -/
def pwrctlW (w : Word) (s : State) : CwRes :=
  let old := s.cg rPWRCTL
  if fld w 2 3 = 3 then (some 2, s)
  else accepted (plainW rPWRCTL w s) fun s =>
    let s := s.csf rPWRSTAT 2 3 (fld w 2 3)
    if s.cg rPWRCTL = old then s else { s with sys := { s.sys with slateWake := s.sys.slate } }

def aonW (m : Bool) (off : Nat) (w : Word) (s : State) : CwRes :=
  if off = rPWRCTL then failIf (!m) (pwrctlW w s) s
  else if rPWRCTL < off then failIf (!m) (plainW off w s) s
  else plainW off w s

/-! ### Lock windows (R562 to R564) -/

/-- The copy that an engine holds in M, or that is on its way, goes home, and every cached copy of a line goes (R324, R563). -/
def recallLine (l : Nat) (s : State) : State :=
  let s := match ownerCopy s l with
    | some x => match s.hl l with
      | some _ => s.modHl l fun y => { (y.put x.ws) with dirty := true, poison := decide (x.pois ≠ 0) }
      | none => if x.pois ≠ 0 then memPoison l s else memWrite l x.ws s
    | none => match comingHome s l with
      | some p => homePut l p.1 p.2 s
      | none => s
  (dropCopies l s).modHl l fun x => { x with st := if x.st = .lost then .lost else .i, sharers := 0, owner := 0 }

/-- The window of LKWi lies in populated DRAM or in the boot SRAM, has a size of the table, and meets no other locked
window. -/
def lkwOk (s : State) (i : Nat) : Bool :=
  let b := s.cf (rLKW i + 1) 1 35
  let z := (s.cg (rLKW i + 2)).toNat
  let e := ctlBase + bootSramBlk
  decide (b % 8 = 0 ∧ z % 8 = 0 ∧ 8 ≤ z ∧ z ≤ 2 ^ 29) && (decide (b + z ≤ dramWords s) || decide (e ≤ b ∧ b + z ≤ e + 262144))
    && (List.range 16).all fun j =>
      j = i || !s.cb (rLKW j) 0
        || (let c := s.cf (rLKW j + 1) 1 35
            decide (b + z ≤ c ∨ c + (s.cg (rLKW j + 2)).toNat ≤ b))

/-- An answer on its way that would give an engine a line of a locked window in E or M: a store fails, a load has the line in S. -/
def lkwAnswer (s : State) (m : Msg) : Msg :=
  match m with
  | .data (.engine e) l .m ws p pl => if lockedWin s (8 * l) then .fail (.engine e) l 2 else .data (.engine e) l .m ws p pl
  | .data a l .e ws p pl => if lockedWin s (8 * l) then .data a l .s ws p pl else .data a l .e ws p pl
  | m => m

/-- The engine that a line of E on its way then has in S, for the directory. -/
def lkwShare (s : State) (m : Msg) (t : State) : State :=
  match m with
  | .data (.engine e) l .e _ _ _ => if lockedWin s (8 * l) then t.modHl l fun x => { x with st := .s, sharers := shBit e } else t
  | _ => t

/-- The lock takes effect: every cached copy of its lines is recalled, and no engine obtains one in E or M any more. -/
def lkwTake (i : Nat) (s : State) : State :=
  let k := s.csf (rLKW i) 0 0 1
  -- a full-line write that has already taken the copies of its line away ends before the acknowledgement
  let s := (s.home.txns.filter fun t => lockedWin k (8 * t.line) && match t.kind with
    | .wrl _ => true
    | _ => false).foldl (fun s t => finishTxn t s) s
  let s := s.csf (rLKW i) 0 0 1
  let owned := (s.home.lines.filter fun p => (p.2.bind HLine.own).isSome).map Prod.fst
  let ls := ((s.eng.flatMap fun p => p.2.mem.l1d.map L1Line.line) ++ owned).eraseDups.filter fun l => lockedWin s (8 * l)
  let t := ls.foldl (fun s l => recallLine l s) s
  s.home.net.foldl (fun t m => lkwShare s m t) (t.modHome fun h => { h with net := h.net.map (lkwAnswer s) })

/-- A write of word j of LKWi. A boot window is not released by a write (R564). -/
def lkwW (ag : Agent) (i j : Nat) (w : Word) (s : State) : CwRes :=
  let locked := s.cb (rLKW i) 0
  if ag ≠ .mgmt then (some 2, s)
  else if j = 0 then
    if locked then
      if fld w 1 1 ≠ s.cf (rLKW i) 1 1 then (some 2, s)
      else (none, if !bit w 0 && s.cb (rLKW i) 1 then s.csf (rLKW i) 0 0 0 else s)
    else
      let s' := s.csf (rLKW i) 1 1 (fld w 1 1)
      if !bit w 0 then (none, s') else failIf (!lkwOk s i) (none, lkwTake i s') s
  else failIf locked (plainW (rLKW i + j) w s) s

/-! ### Boot, debug and retained words -/

def bootW (ag : Agent) (off : Nat) (w : Word) (s : State) : CwRes :=
  let o := off - bootBlk
  if 0o100 ≤ o ∧ o < 0o200 then lkwW ag ((o - 0o100) / 4) (o % 4) w s
  else if o = 2 ∨ (0o10 ≤ o ∧ o ≤ 0o27) ∨ 0o4000 ≤ o then
    failIf (ag ≠ .debug || (ctlAcc off).isNone) (none, if o = 2 then fcmd w s else s.cs off w) s
  else plainW off w s

def debugW (off : Nat) (w : Word) (s : State) : CwRes :=
  let o := off - dbgBlk
  if o = 1 then dstopWrite w s
  else if 0o100 ≤ o ∧ o < 0o100 + 288 ∧ o % 2 = 0 then
    let r := haltCommand ((o - 0o100) / 2) (bit w 0) (bit w 1) s
    (if r.1 then none else some 2, r.2)
  else plainW off w s

def bootSramW (off : Nat) (w : Word) (s : State) : CwRes :=
  if (ctlAcc off).isNone || lockedWin s (ctlBase + off) then (some 2, s)
  else (none, s.modMem fun m => { m with bootSram := tset 0 m.bootSram (off - bootSramBlk) w })

/-! ### Release unit (R316, R362, R531, R569) -/

def relW (m : Bool) (off : Nat) (w : Word) (s : State) : CwRes :=
  if off = rRUCTL then failIf (!m || (bit w 0 && !vok s)) (plainW off w s) s
  else if off = rRUSTAT then plainW off w s
  else failIf (!m) (plainW off w s) s

/-! ### Context store (R271, R274) -/

/-- The checks that the release unit makes at once. -/
def ctxCheck (k : Nat) (s : State) : State := if ctxState s k = 2 && !recOk (ctxWords s k) then refuseRec k s else s

/-- A write of word 0 of a record. -/
def ctxW0 (k : Nat) (w : Word) (s : State) : State :=
  let o := ctxState s k
  let n := fld w 12 14
  let s := (plainW (rCtx k 0) (setFld w 12 14 o) s).2
  let s :=
    if 2 < o ∨ 2 < n then s
    else if n = 1 ∧ o = 2 ∧ ctxStaged s k then s.csf (rCtx k 0) 22 22 1
    else setCtxState k n s
  disSync k s

/-- A write of word i of the record of context k, without the checks of R274. -/
def ctxW (k i : Nat) (w : Word) (s : State) : CwRes :=
  if i = 0 then (none, ctxW0 k w s) else plainW (rCtx k i) w s

/-- The checks of R274 after an access whose first word lies at `off`: made once, on the record as the whole access leaves it
(R61: a double is one access). -/
def ctxAfter (off : Nat) (r : CwRes) : CwRes :=
  if ctxBlk ≤ off ∧ off < mgmtBlk ∧ (off - ctxBlk) % 32 ≤ 12 then accepted r (ctxCheck ((off - ctxBlk) / 32)) else r

/-! ### Ethernet subsystem (R408, R410, R411, R423, R424, R433, R437, R651) -/

/-- PCFG: EN written 0 takes the link down, RS-FEC alignment is locked only with EN and FEC at 1 (R411); PRE written 0 ends what
preemption verification has reached, so that PRE 1 begins it anew (R426; DEDUCED: log entry 81). -/
def pcfgW (p : Nat) (w : Word) (s : State) : CwRes :=
  let old := s.cg (portBlk p)
  let ch := fun (i : Nat) => bit w i ≠ bit old i
  if (bit w 2 && !bit w 1) || (bit old 0 && (ch 1 || ch 2 || ch 20)) then (some 2, s)
  else accepted (plainW (portBlk p) w s) fun s =>
    let s := if bit w 4 then s else (s.csf (rPSTAT p) 2 2 0).modPort p fun x => { x with vfy := 0 }
    let s := if bit old 0 && !bit w 0 then linkFall p false s else s
    if bit w 0 && bit w 2 then s else s.csf (rPSTAT p) 1 1 0

def portW (p o : Nat) (w : Word) (s : State) : CwRes :=
  let off := portBlk p + o
  if o = 0 then pcfgW p w s
  else if o = 0o10 then gctlWrite false p w s
  else if 0o11 ≤ o ∧ o ≤ 0o13 then failIf (!gateParamOk s false p) (plainW off w s) s
  else if 0o1000 ≤ o ∧ o ≤ 0o1777 then failIf (!gateEntryOk s false p ((o - 0o1000) / 0o400) w) (plainW off w s) s
  else plainW off w s

def sgateW (i o : Nat) (w : Word) (s : State) : CwRes :=
  let off := rGctl true i + o
  if o = 0 then gctlWrite true i w s
  else if o < 4 then failIf (!gateParamOk s true i) (plainW off w s) s
  else failIf (!gateEntryOk s true i 0 w) (plainW off w s) s

/-- Word j of a stream entry names a cuff port in RXP or TXP (R429, R433). -/
def namesCuff (s : State) (j : Nat) (w : Word) : Bool :=
  (cuffPorts s).any fun p => (j = 0 && bit w (3 + p)) || (j = 7 && bit w (1 + p))

def ethW (off : Nat) (w : Word) (s : State) : CwRes :=
  let o := off - ethBlk
  if o < 0o40000 then portW (o / 0o10000) (o % 0o10000) w s
  else if o = 0o40012 ∨ o = 0o40013 then (some 2, s)
  else if o = 0o40014 then dtRate w s
  else if 0o50000 ≤ o ∧ o < 0o70000 then failIf (namesCuff s (o % 8) w) (plainW off w s) s
  else if 0o70000 ≤ o ∧ o < 0o72000 then sgateW ((o - 0o70000) / 16) (o % 16) w s
  else if 0o100000 ≤ o ∧ o < 0o100000 + 12 * 16384 ∧ (o - 0o100000) % 12 = 0 then
    let r := plainW off w s
    (r.1, keySync ((o - 0o100000) / 12) r.2)
  else plainW off w s

/-! ### Mailboxes (R483 to R485) -/

/-- The words of a command area. -/
def mbSize : MbSrc → Nat
  | .debug => 312
  | _ => 32

/-- A write of MBDB: RING submits the command in the command area. -/
def doorbellW (src : MbSrc) (d a : Nat) (w : Word) (s : State) : CwRes :=
  if bit w 0 && s.cb d 0 then (some 2, s)
  else
    let s := s.cs d (setFld (accMBDB.write (s.cg d) w) 0 0 (s.cf d 0 0))
    if !bit w 0 then (none, s)
    else (none, enqueueCmd src (s.cgs a (min (mbSize src) (1 + s.cf a 9 17))) (s.csf d 0 0 1))

/-- A write in the window of a mailbox. -/
def mailboxW (src : MbSrc) (off : Nat) (w : Word) (s : State) : CwRes :=
  match mbCmd src, mbDb src with
  | some a, some d =>
    if off = d then doorbellW src d a w s
    else if a ≤ off ∧ off < a + mbSize src then failIf (s.cb d 0) (plainW off w s) s
    else plainW off w s
  | _, _ => (some 2, s)

def mgmtW (ag : Agent) (off : Nat) (w : Word) (s : State) : CwRes :=
  if off < rDbgMbx then mailboxW (.tenant ((off - mgmtBlk) / 96)) off w s
  else if off < rMPSTAT then failIf (ag ≠ .debug) (mailboxW .debug off w s) s
  else plainW off w s

/-! ### Cluster control (R214, R233, R362, R653) -/

/-- PCTL: CLR clears every counter of the engine. -/
def pctlW (e : Nat) (w : Word) (s : State) : State :=
  let s := (plainW (rPCTL e) w s).2
  if bit w 1 then (List.range 26).foldl (fun s k => s.cs (rPerf e + k) 0) s else s

def clusterW (m : Bool) (off : Nat) (w : Word) (s : State) : CwRes :=
  let c := (off - cluBlk 0) / 0o40000
  let o := (off - cluBlk 0) % 0o40000
  if 0o10000 ≤ o ∧ o < 0o11400 ∧ o % 0o100 = 0o40 then (none, pctlW (12 * c + (o - 0o10000) / 0o100) w s)
  else if 0o12000 ≤ o ∧ o < 0o12140 ∧ o % 8 = 1 then (none, ireqStore (12 * c + (o - 0o12000) / 8) w s)
  else if 0o12000 ≤ o ∧ o < 0o12140 ∧ o % 8 = 2 then
    accepted (plainW off w s) fun s => mchkSync (12 * c + (o - 0o12000) / 8) s
  else if (0o13000 ≤ o ∧ o < 0o13140 ∧ o % 8 = 2) ∨ (0o15000 ≤ o ∧ o < 0o15140) then failIf (!m) (plainW off w s) s
  else plainW off w s

/-! ### Movers (R391, R392, R395, R406, R523) -/

/-- CHCMD: the shadow is disarmed first. -/
def chcmdW (c n : Nat) (w : Word) (s : State) : State :=
  let s := if bit w 1 then disarmShadow c n s else s
  if bit w 0 then abortChan c n s else s

def moverW (m : Bool) (off : Nat) (w : Word) (s : State) : CwRes :=
  let c := (off - movBlk 0) / 0o20000
  let o := (off - movBlk 0) % 0o20000
  let n := o / 0o400
  let i := o % 0o400
  if o < 0o10000 then
    if (ctlAcc off).isNone || (s.mover c).retired || (!m && !chBound s c n) then (some 2, s)
    else if i = 4 ∨ i = 12 then if bit w 0 then armSet c n (i = 12) s else (none, s)
    else if i < 4 then failIf (armed s c n false) (plainW off w s) s
    else if 8 ≤ i ∧ i < 12 then failIf (armed s c n true) (plainW off w s) s
    else if i = 18 then (none, chcmdW c n w s)
    else plainW off w s
  else if o < 0o10020 then
    let k := o - 0o10000
    failIf (!m || armed s c k false || armed s c k true) (plainW off w s) s
  else plainW off w s

/-! ### A write by an agent -/

/-- One word of an access, by agent `ag` at level `lvl`. -/
def cwPut (ag : Agent) (lvl off : Nat) (w : Word) (s : State) : CwRes :=
  let m := mOnly lvl ag
  if off < aonBlk then globalW m off w s
  else if off < sramBlk then aonW m off w s
  else if off < dbgBlk then failIf (decide (off < sramBlk + 0o400)) (plainW off w s) s
  else if off < bootBlk then debugW off w s
  else if off < mcBlk 0 then bootW ag off w s
  else if off < relBlk then plainW off w s
  else if off < ethBlk then relW m off w s
  else if off < ctxBlk then failIf (!m) (ethW off w s) s
  else if off < mgmtBlk then ctxW ((off - ctxBlk) / 32) ((off - ctxBlk) % 32) w s
  else if off < cluBlk 0 then mgmtW ag off w s
  else if off < movBlk 0 then (if (ctlAcc off).isNone then (some 2, s) else clusterW m off w s)
  else if off < bootSramBlk then moverW m off w s
  else bootSramW off w s

/-- An access of one word. -/
def cwWrite1 (ag : Agent) (lvl off : Nat) (w : Word) (s : State) : CwRes := ctxAfter off (cwPut ag lvl off w s)

/-- A word or a double. A double write of DTSTEP acts as one (R437); otherwise a double that fails in one word changes
nothing. -/
def cwWrite (ag : Agent) (lvl off : Nat) (ws : List Word) (s : State) : CwRes :=
  match ws with
  | [a, b] =>
    if off = ethBlk + 0o40012 then failIf (!mOnly lvl ag) (dtStep a b s) s
    else
      let r := cwPut ag lvl off a s
      match r.1 with
      | some c => (some c, s)
      | none =>
        let q := cwPut ag lvl (off + 1) b r.2
        match q.1 with
        | some c => (some c, s)
        | none => ctxAfter off q
  | [a] => cwWrite1 ag lvl off a s
  | _ => (some 2, s)

/-! ### Rows -/

/-- A write by an agent from outside the engines' pipelines, with its answer. -/
def agWrite (ag : Agent) (off : Nat) (w : Word) (s : State) : Host.Outcome State Fault Refusal :=
  if agOk ag then .next (answered (cwWrite1 ag (agLevel s ag) off w s)) else .fault .noSuchUnit

/-- REGISTER_WRITE (R12). -/
def execRegisterWrite (ag : Agent) (off : Nat) (w : Word) (s : State) : Host.Outcome State Fault Refusal :=
  if off < 0o100000000 then agWrite ag off w s else .fault .noSuchUnit

/-- READ_CLEAR (R12): a read of a word or double. -/
def execReadClear (ag : Agent) (off : Nat) (dbl : Bool) (s : State) : Host.Outcome State Fault Refusal :=
  if agOk ag && decide (off < 0o100000000) then
    .next (let r := agRead ag (readClears s ag) off dbl s
           { r.2 with answer := match r.1 with
               | some ws => .read ws
               | none => .failed 2 })
  else .fault .noSuchUnit

/-- CONTEXT_RECORD_WRITE (R271): word i of the record of context k. -/
def execContextRecordWrite (ag : Agent) (k i : Nat) (w : Word) (s : State) : Host.Outcome State Fault Refusal :=
  if k < 16384 ∧ i < 32 then agWrite ag (rCtx k i) w s else .fault .noSuchUnit

/-- TENANT_RECORD_WRITE (R362): the word of a tenant record, of SLOTMAP or of DEDIC at a control-window offset. -/
def execTenantRecordWrite (ag : Agent) (off : Nat) (w : Word) (s : State) : Host.Outcome State Fault Refusal :=
  let ten := decide (rTen 0 0 ≤ off ∧ off < rTen 0 0 + 32768)
  let slot := decide (0o100 ≤ off ∧ off ≤ 0o177)
  let ded := (List.range 144).any fun e => rDEDIC e = off
  if ten || slot || ded then agWrite ag off w s else .fault .noSuchUnit

/-- RSVCFG_WRITE (R121). -/
def execRsvcfgWrite (ag : Agent) (w : Word) (s : State) : Host.Outcome State Fault Refusal := agWrite ag rRSVCFG w s

/-- PCTL_CLEAR (R214): a write of PCTL of engine e. -/
def execPctlClear (ag : Agent) (e : Nat) (w : Word) (s : State) : Host.Outcome State Fault Refusal :=
  if e < 144 then agWrite ag (rPCTL e) w s else .fault .noSuchUnit

/-- MAILBOX_DOORBELL (R484): a write of MBDB. A network mailbox has no window. -/
def execMailboxDoorbell (ag : Agent) (src : MbSrc) (w : Word) (s : State) : Host.Outcome State Fault Refusal :=
  if !(srcOk src && agOk ag) then .fault .noSuchUnit
  else match mbDb src with
    | some d => agWrite ag d w s
    | none => .next { s with answer := .failed 2 }

/-- MOVER_ARM (R395): a write of 1 to ARM of a set. -/
def execMoverArm (ag : Agent) (c n : Nat) (shadow : Bool) (s : State) : Host.Outcome State Fault Refusal :=
  if c < 12 ∧ n < 16 then agWrite ag (chSet c n shadow + 4) (place 0 0 1) s else .fault .noSuchUnit

/-- MOVER_ABORT (R406): a write of 1 to ABW. -/
def execMoverAbort (ag : Agent) (c n : Nat) (s : State) : Host.Outcome State Fault Refusal :=
  if c < 12 ∧ n < 16 then agWrite ag (chBlk c n + 18) (place 0 0 1) s else .fault .noSuchUnit

/-- SHADOW_DISARM (R406): a write of 1 to CNS. -/
def execShadowDisarm (ag : Agent) (c n : Nat) (s : State) : Host.Outcome State Fault Refusal :=
  if c < 12 ∧ n < 16 then agWrite ag (chBlk c n + 18) (place 1 1 1) s else .fault .noSuchUnit

/-- LKW_LOCK (R563): a write of 1 to LOCKED, STG as it stands. -/
def execLkwLock (ag : Agent) (i : Nat) (s : State) : Host.Outcome State Fault Refusal :=
  if i < 16 then agWrite ag (rLKW i) (setBit (s.cg (rLKW i)) 0 true) s else .fault .noSuchUnit

/-- LKW_RELEASE (R564): a write of 0 to LOCKED, STG as it stands. -/
def execLkwRelease (ag : Agent) (i : Nat) (s : State) : Host.Outcome State Fault Refusal :=
  if i < 16 then agWrite ag (rLKW i) (setBit (s.cg (rLKW i)) 0 false) s else .fault .noSuchUnit

/-- PROGRAM_OWNER_SLOT (R581): a write of FCMD. -/
def execProgramOwnerSlot (ag : Agent) (slot : Nat) (s : State) : Host.Outcome State Fault Refusal :=
  if slot < 4 then agWrite ag (bootBlk + 2) (place 0 2 1 ||| place 3 4 slot) s else .fault .noSuchUnit

/-- SEAL (R581). -/
def execSeal (ag : Agent) (s : State) : Host.Outcome State Fault Refusal := agWrite ag (bootBlk + 2) (place 0 2 2) s

/-- OPEN (R581). -/
def execOpenI (ag : Agent) (s : State) : Host.Outcome State Fault Refusal := agWrite ag (bootBlk + 2) (place 0 2 3) s

/-- STORE_ACKNOWLEDGED (R345): a data or code entry that its owner's line has taken, or a control-window store that its block
performs now, is acknowledged and freed; a block that refuses it declares it failed (R354). -/
def execStoreAcknowledged (e idx : Nat) (s : State) : Host.Outcome State Fault Refusal :=
  onEngine e (decide (idx < 8))
    (match sbAt s e idx with
     | none => s
     | some x =>
       if x.kind ≠ .control then (if x.phase = 3 then sbFree e idx s else s)
       else if x.phase = 0 then s
       else
         let r := cwWrite (.engine e) x.lvl x.line x.ws s
         match r.1 with
         | some c => sbFailed e idx x c r.2
         | none => sbFree e idx r.2)

/-- CONTROL_WINDOW_LOAD_ANSWER (R210): the block answers, and the stalled instruction is carried out; `stall` is the measured
time. -/
def execControlWindowLoadAnswer (e stall : Nat) (s : State) : Host.Outcome State Fault Refusal :=
  onEngine e true
    (match (s.e e).run.stall with
     | some x => match x.why with
       | .ctl off dbl =>
         let r := cwRead (readClears s (.engine e)) off dbl s
         let ws := r.1.getD (if dbl then [0, 0] else [0])
         stallEnds e cPSLD 1000 stall (r.2.modE e fun g => g.modMem fun m => { m with ctlAns := some (m.ctlAns.getD [] ++ ws) })
       | _ => s
     | none => s)

end Sys2Proof.Machine
end

