-- ==== Sys2Proof/Machine/Publish.lean ====
section
/-! DEFINITION. The commit point and what follows it (R302, R304 to R306, R314, R462, R541). -/

namespace Sys2Proof.Machine

/-- The measured part of COMMIT still to pass, within its bounds; that of a sealed tenant lasts exactly 2.4 µs (R305, R384). -/
def commitStall (s : State) (e spent n : Nat) : Nat :=
  let most := boundCyc s 2400 - spent
  if padding (s.e e) then most else min n (min (boundCyc s 1000) most)

/-- A deferred store is performed; one that fails adds to RUSTAT.DSF and is journaled (R306). -/
def deferredStore (e k t : Nat) (d : Deferred) (s : State) : State :=
  let r := cwWrite (.engine e) d.lvl d.off d.ws s
  match r.1 with
  | some _ => jEvent 0o410 t [mkW k, mkW (ctlBase + d.off)] (r.2.csat rRUSTAT 15 23)
  | none => r.2

/-- The context has transmit bindings, so that a commit or drop is announced to the Septeg engine. -/
def hasOutputs (s : State) (k : Nat) : Bool := (bindings s).any fun x => x.tx && x.ctx = k

/-- An earlier notice of the context waits for its output blocks to be read (R462). -/
def noticeBusy (s : State) (k : Nat) : Bool := s.net.notices.any (fun n => n.ctx = k) && hasOutputs s k

/-- The charge of the whole activation, yields included (R294, R296). -/
def totalUse (x : Entry) (use : Nat) : Nat := ((recBudget x.recw : Int) - x.remain + use).toNat

/-- NCOMMIT, LASTUSE and MAXUSE (R270, R302). -/
def commitRecord (k use : Nat) (s : State) : State :=
  let u := min use (2 ^ 36 - 1)
  let s := s.cs (rCtx k 27) (s.cg (rCtx k 27) + 1)
  (s.cs (rCtx k 30) (mkW u)).cs (rCtx k 31) (mkW (max (s.cg (rCtx k 31)).toNat u))

/-- The stream's line record of one line that a commit publishes (R541); a line that its PUBLISH will leave as it is has none
(R336, R563). -/
def pairTent (s : State) (t : TLine) : State → State :=
  let v := rsSeen t.ws t.chk t.poison
  if lockedWin s (8 * t.line) || v.2 || ((homeLine s t.line).2 && decide (t.en ≠ fullEn)) then id
  else pairAppend (.line t.line (peekLine s t.line).1)

/-- The stream's part in a commit of an activation of a tenant other than 0, in commit-point order (R541): a line record for each
line, the context record, the commit marker. -/
def pairCommit (k t bnd : Nat) (ts : List TLine) (s : State) : State :=
  if streaming s && decide (t ≠ 0) then
    pairFlush (pairAppend (.commit k bnd) (pairAppend (.context k (s.cgs (rCtx k 27) 5))
      (ts.foldl (fun s t => pairTent s t s) s)))
  else s

/-- What the commit of activation x does outside engine e: the granules still watched for the context are dropped, PUBLISH to each
locked home, the deferred stores in program order, the notice, the record (R302, R314). -/
def commitOut (e : Nat) (x : Entry) (use : Nat) (ds : List Deferred) (s : State) : State :=
  let k := x.ctx
  let hs := commitHomes s k
  let ts := s.home.tents.filter fun t => t.ctx = k
  let s := sendAll (hs.map fun h => .publish e k h)
    (s.modHome fun h => { h with cwatches := h.cwatches.filter fun w => w.ctx ≠ k })
  let s := ds.foldl (fun s d => deferredStore e k x.tenant d s) s
  let s := pairCommit k x.tenant x.rel ts (commitRecord k (totalUse x use) s)
  ctxEnd k (if hasOutputs s k then outNote x false s else s)

/-- Microwords 11 to 24 on the engine. -/
def commitGo (e : Nat) (x : Entry) (s : State) : State :=
  let s := fixed e 14 (count e cPINS 1 s)
  let g := s.e e
  mantleReturn e (endRun e (commitOut e x g.run.use g.mem.defer s))

/-- COMMIT_POINT (R302, R304): every lock is acknowledged and the release unit accepts the notice; `stall` is the measured
part since the drain step. -/
def execCommitPoint (e stall : Nat) (s : State) : Host.Outcome State Fault Refusal :=
  onEngine e true
    (let g := s.e e
     match g.run.cphase, g.run.stall, g.run.entry with
     | .locking spent, some w, some x =>
       match w.why with
       | .locks [] =>
         if noticeBusy s x.ctx || engineDown s e then s
         else
           let s := measured e cPSMC (commitStall s e spent stall) (s.modE e fun g => g.modRun fun r => { r with stall := none })
           commitGo e x s
       | _ => s
     | _, _, _ => s)

end Sys2Proof.Machine
end

