-- ==== Sys2Proof/Machine/Deliver.lean ====
section
/-! DEFINITION. What requesters do with the replies of a home slice (R46, R92, R95, R243, R327, R328, R330, R332, R345, R354,
R405, R466, R647, R649): DATA, ACK and FAIL. -/

namespace Sys2Proof.Machine

/-! ### Bounds by place (R210) -/

/-- The bound of a miss by the place that served it; none for poisoned data (R211). -/
def placeNs (place pois : Nat) : Nat :=
  if pois ≠ 0 then 0 else match place with
    | 0 => 150
    | 1 => 300
    | 2 => 800
    | _ => 1600

/-- The counter of a stall for a line: microcode has its own (R213). -/
def lineCtr (i : Instr) : Nat :=
  match i with
  | .cust .. => cPSMC
  | _ => cPSLD

/-! ### Descriptor reads (R95, R649) -/

/-- The data-loss fault of a poisoned descriptor line; during exception entry the entry fails. -/
def descrPoison (e : Nat) (i : Instr) (t ix seg n : Nat) (s : State) : State :=
  let s := (measured e cPSLD n s).modE e fun g => g.modRun fun r => { r with stall := none }
  match i, (s.e e).pipe.exc with
  | .exceptionEntry _, some x => if x.vec = vDouble then thirdFault e s else entryFails e x s
  | _, _ => preciseFault e vLoss 5 seg (mkW (descAddr s t ix)) s

/-- SEGLD and the far transfers enter a descriptor themselves, when they succeed (R94, R163). -/
def entersItself : Instr → Bool
  | .segld .. => true
  | .fjmp .. => true
  | .fcall .. => true
  | .fret .. => true
  | _ => false

/-- The line of a descriptor arrives, and the instruction is carried out; for an access, a fetch or an entry the descriptor is
entered in the descriptor cache here. -/
def descrData (e : Nat) (x : Stall) (l t ix seg : Nat) (ws : List Word) (pois place n : Nat) (s : State) : State :=
  if pois ≠ 0 then descrPoison e x.instr t ix seg n s
  else
    let k := descAddr s t ix - 8 * l
    let d : DcEntry := { tenant := t, index := ix, d0 := ws.getD k 0, d1 := ws.getD (k + 1) 0 }
    stallEnds e cPSLD (placeNs place 0) n (s.modE e fun g =>
      if x.inEx && entersItself x.instr then g.modPipe fun p => { p with descIn := some d } else g.dcEnter d)

/-! ### Lines for engines -/

/-- The entry of the store buffer that drains to a line and waits for it. -/
def drainIdx (s : State) (e l : Nat) : Option Nat :=
  (s.e e).mem.sb.findIdx? fun x => x.line = l && x.kind ≠ .control && (x.phase = 1 || x.phase = 2)

/-- The first enabled word of an entry. -/
def firstWord (x : SbEntry) : Nat := 8 * x.line + ((List.range 8).find? fun k => enHas x.en k).getD 0

/-- A poisoned line for a store: made with TID.ACT at 0, its data-loss fault is due, and the entry goes (R243); one made with TID.ACT
at 1, through a code-type segment, is declared failed with cause 03 as R336 has it for a tentative write (R243). -/
def drainLoss (e idx : Nat) (x : SbEntry) (s : State) : State :=
  if x.act then sbFailed e idx x 3 s
  else sbFree e idx (s.modE e fun g => g.modPipe fun p => { p with stLoss := p.stLoss ++ [firstWord x] })

/-- The physical word that a stalled STC stores to. -/
def stcWord (s : State) (e l : Nat) (i : Instr) : Nat :=
  let at_ := fun (b seg disp : Nat) =>
    let g := s.e e
    match segCheck s e (g.segSel seg) g.level g.tenant .stc (g.memOff b disp) 1 with
    | .ok _ pas => pas.headD (8 * l)
    | _ => 8 * l
  match i with
  | .stc _ _ b seg disp => at_ b seg disp
  | .stcD _ _ b seg disp => at_ b seg disp
  | _ => 8 * l

/-- A poisoned line for an STC: the data-loss fault of R243 is due, and the STC, its reservation lost, stores nothing (log
entry 37). -/
def stcLoss (e l : Nat) (i : Instr) (s : State) : State :=
  let pa := stcWord s e l i
  (resvClear e s).modE e fun g =>
    (g.modPipe fun p => { p with stLoss := p.stLoss ++ [pa] }).modMem fun m => { m with ctlAns := some [] }

/-- A line in the L1 instruction cache: 128 sets of 4 ways, the least recently used leaves (R181). -/
def l1iInstall (e : Nat) (x : L1I) (s : State) : State :=
  s.modE e fun g => g.modMem fun m =>
    let rest := m.l1i.filter fun y => y.line ≠ x.line
    let old := ((rest.filter fun y => y.line % 128 = x.line % 128).drop 3).map L1I.line
    { m with l1i := x :: rest.filter fun y => !old.contains y.line }

/-- The line that a fetch waits for arrives: it enters the L1 instruction cache, and the fetch goes on (R183). The second line of
an instruction enters the line buffer beside the first (R182). -/
def fetchData (e : Nat) (x : L1I) (place n : Nat) (s : State) : State :=
  stallEnds e cPSIF (placeNs place x.pois.toNat) n ((l1iInstall e x s).modE e fun g => g.modMem fun m =>
    { m with ahead := m.ahead.filter (· ≠ x.line),
             lbuf := match m.lbuf with
               | [y] => if y.line + 1 = x.line then [y, x] else [y]
               | b => b })

/-- The words of the entry that waits for a line are written into it (R345). -/
def drainInto (e l : Nat) (s : State) : State :=
  match drainIdx s e l, (s.e e).l1Any l with
  | some i, some c =>
    match sbAt s e i with
    | some x => sbMod e i (fun y => { y with phase := 3 }) (s.modE e fun g => g.l1Set (sbIntoLine x c .m))
    | none => s
  | _, _ => s

/-- The L1 state that a grant installs. -/
def grantState : Grant → L1State
  | .s => .s
  | .e => .e
  | .t _ => .t
  | _ => .m

/-- The stall for a line of data ends. -/
def lineWake (e l place pois n : Nat) (s : State) : State :=
  match (s.e e).run.stall with
  | some x => match x.why with
    | .line m => if m = l then stallEnds e (lineCtr x.instr) (placeNs place pois) n s else lookAgain e l s
    | _ => lookAgain e l s
  | none => s

/-- An STC waits for line l in E or M. -/
def stcWaits (s : State) (e l : Nat) : Bool :=
  match (s.e e).run.stall with
  | some x => x.why = .stcLine l
  | none => false

/-- DATA M for a store that has been declared failed is discarded (R355). The home has made the engine its owner, so that the line
goes back with WBK (DEDUCED, log entry 74). -/
def giveBack (e l : Nat) (ws : List Word) (s : State) : State := send (.wbk e l ws 0) s

/-- A line of instructions that F1 has read ahead arrives: it enters the L1 instruction cache, and the line buffer behind the line
before it (R182, R183). -/
def aheadData (e : Nat) (x : L1I) (s : State) : State :=
  (l1iInstall e x s).modE e fun g => g.modMem fun m =>
    { m with ahead := m.ahead.filter (· ≠ x.line),
             lbuf := match m.lbuf with
               | [y] => if y.line + 1 = x.line then [y, x] else [y]
               | b => b }

/-- The engine has read line l ahead, and no fetch waits for it. -/
def readAhead (s : State) (e l : Nat) : Bool :=
  (s.e e).mem.ahead.contains l && match (s.e e).run.stall with
    | some x => x.why ≠ .fetch l
    | none => true

/-- DATA at an engine (R327, R328). Unrecorded data that nothing waits for any more is dropped, and so is a T copy for an activation
that the engine does not run any more (R311). -/
def engData (e l : Nat) (g : Grant) (ws : List Word) (pois place n : Nat) (s : State) : State :=
  let tn := match (drainIdx s e l).bind fun i => sbAt s e i with
    | some x => x.tenant
    | none => (s.e e).tenant
  let line := fun (st : L1State) => ({ line := l, tenant := tn, st := st, ws := ws, pois := pois } : L1Line)
  match g with
  | .rec_ =>
    if readAhead s e l then lookAgain e l (aheadData e { line := l, ws := ws, pois := decide (pois ≠ 0) } s) else
    match (drainIdx s e l).bind (fun i => (sbAt s e i).map fun x => (i, x)), (s.e e).run.stall with
    | some p, _ => lookAgain e l (drainLoss e p.1 p.2 s)
    | none, some x => match x.why with
      | .descr m t ix seg => if m = l then descrData e x l t ix seg ws pois place n s else s
      | .stcLine m => if m = l then stcLoss e l x.instr s else s
      | .fetch m => if m = l then fetchData e { line := l, ws := ws, pois := decide (pois ≠ 0) } place n s else s
      | _ => lookAgain e l s
    | none, none => s
  | .unc =>
    match (s.e e).run.stall with
    | some x =>
      if x.why = .line l then lineWake e l place pois n (s.modE e fun g => g.modMem fun m => { m with unc := line .s :: m.unc })
      else s
    | none => s
  | .m =>
    if (drainIdx s e l).isSome || stcWaits s e l then
      lineWake e l place pois n (drainInto e l (l1Install e (line .m) s))
    else lookAgain e l (giveBack e l ws s)
  | .t k =>
    if (s.e e).act && (s.e e).ctx = k then lineWake e l place pois n (l1Install e (line .t) s) else lookAgain e l s
  | _ => lineWake e l place pois n (l1Install e (line (grantState g)) s)

/-- An ACK for line l answers an UPG: of a store-buffer entry or of an STC. -/
def upgAnswered (s : State) (e l : Nat) : Bool :=
  match (drainIdx s e l).bind fun i => sbAt s e i with
  | some x => !(x.act && x.kind = .data) && !x.unc && x.phase = 1
  | none => stcWaits s e l

/-- ACK at an engine; that of a WRT makes the copy T for the activation that the engine still runs (R307, R332). It is an ACK of a WRT, of a MOD, of a merge write, of an UPG, or of a write-back (R328, R332, R345, R647). -/
def engAck (e l : Nat) (unc : Bool) (s : State) : State :=
  match drainIdx s e l with
  | some i =>
    match sbAt s e i with
    | none => s
    | some x =>
      if x.act && x.kind = .data then
        sbFree e i (s.modE e fun g => match g.l1Any l with
          | some c => if c.tenant = x.tenant && g.act && g.ctx = x.ctx then g.l1Set (sbIntoLine x c .t) else g
          | none => g) |> lookAgain e l
      else if unc then drainMerge e i x s
      else if x.phase = 2 || x.unc then lookAgain e l (sbFree e i s)
      else match (s.e e).l1Any l with
        | some c => if c.st = .s then drainInto e l s else request (.engine e) l x.tenant .rdx s
        | none => request (.engine e) l x.tenant .rdx s
  | none =>
    match (s.e e).run.stall with
    | some x =>
      if x.why = .stcLine l then
        if unc then s.modE e fun g => g.modMem fun m => { m with ctlAns := some [] }
        else if reqOut s (.engine e) l then s
        else match (s.e e).l1Any l with
          | some c => if c.st = .s then s.modE e fun g => g.l1Set { c with st := .m } else lookAgain e l s
          | none => lookAgain e l s
      else lookAgain e l (closeUnc e s)
    | none => closeUnc e s

/-- FAIL at an engine: the store is declared failed with its cause (R354); an STC decides without its line. -/
def engFail (e l cause : Nat) (s : State) : State :=
  match drainIdx s e l with
  | some i =>
    match sbAt s e i with
    | some x => lookAgain e l (sbFailed e i x cause s)
    | none => s
  | none =>
    match (s.e e).run.stall with
    | some x => if x.why = .stcLine l then s.modE e fun g => g.modMem fun m => { m with ctlAns := some [] } else s
    | none => s

/-! ### The debug bus master's access (R590, R591) -/

/-- An access of the master ends. -/
def accEnd (result : Nat) (d : Word) (s : State) : State :=
  { s with sys := { s.sys with acc := none, accResult := result, accData := d } }

/-- DATA for the master: the word, or RESULT 5 for a poisoned one. -/
def debugData (l : Nat) (ws : List Word) (pois : Nat) (s : State) : State :=
  match s.sys.acc with
  | some a => if a.space = 0 && a.addr / 8 = l && !a.write then
      (if enHas pois (a.addr % 8) then accEnd 5 0 s else accEnd 0 (ws.getD (a.addr % 8) 0) s) else s
  | none => s

/-- The answer to the master's write, or the refusal of its read (R69). -/
def debugAck (l : Nat) (failed : Bool) (s : State) : State :=
  match s.sys.acc with
  | some a => if a.space = 0 && a.addr / 8 = l && (a.write || failed) then accEnd (if failed then 3 else 0) a.data s else s
  | none => s

/-! ### Rows -/

/-- The first reply to an agent about a line. -/
def replyTo (s : State) (ag : Agent) (l : Nat) : Option Msg :=
  match ag with
  | .engine e => headTo s e l
  | _ => s.home.net.find? fun m => match m with
    | .data a x _ _ _ _ => a = ag && x = l
    | .ack a x _ => a = ag && x = l
    | .fail a x _ => a = ag && x = l
    | _ => false

/-- A reply row: what `f` does with the reply where it is one of its kind. -/
def reply (ag : Agent) (l : Nat) (f : Msg → State → State) (s : State) : Host.Outcome State Fault Refusal :=
  if !(agOk ag && decide (l < 2 ^ 32)) then .fault .noSuchUnit
  else .next (match replyTo s ag l with
    | some m => f m s
    | none => s)

/-- DATA (R327): `stall` is the measured time of the instruction that waits. DATA for a line with an INV in the queue waits until
that is applied (R330), and until its way is free. -/
def execDataM (ag : Agent) (line stall : Nat) (s : State) : Host.Outcome State Fault Refusal :=
  reply ag line (fun m s =>
    match m with
    | .data a l g ws p pl =>
      match a with
      | .engine e => if (s.e e).mem.invq.contains l || !((g = .rec_ || g = .unc) || (s.e e).l1Free l) then s else engData e l g ws p pl stall (unsend m s)
      | .mover c => moverData c l ws p (unsend m s)
      | .septeg => septegData l ws p (unsend m s)
      | .debug => debugData l ws p (unsend m s)
      | _ => { unsend m s with answer := .read ws }
    | _ => s) s

/-- ACK (R327). One that grants ownership of a copy with an INV in the queue waits until that is applied, as DATA does (R330). -/
def execAck (ag : Agent) (line _stall : Nat) (s : State) : Host.Outcome State Fault Refusal :=
  reply ag line (fun m s =>
    match m with
    | .ack a l u =>
      match a with
      | .engine e =>
        if (s.e e).mem.invq.contains l && upgAnswered s e l then s else engAck e l u (unsend m s)
      | .mover c => moverAck c l none (unsend m s)
      | .septeg => septegAck l false (unsend m s)
      | .debug => debugAck l false (unsend m s)
      | _ => { unsend m s with answer := .ok }
    | _ => s) s

/-- FAIL (R327). -/
def execFail (ag : Agent) (line _stall : Nat) (s : State) : Host.Outcome State Fault Refusal :=
  reply ag line (fun m s =>
    match m with
    | .fail a l c =>
      match a with
      | .engine e => engFail e l c (unsend m s)
      | .mover k => moverAck k l (some c) (unsend m s)
      | .septeg => septegAck l true (unsend m s)
      | .debug => debugAck l true (unsend m s)
      | _ => { unsend m s with answer := .failed c }
    | _ => s) s

end Sys2Proof.Machine
end

