-- ==== Sys2Proof/Machine/Store.lean ====
section
/-! DEFINITION. What the configuration store holds (R509, R510), and Welana's own writes and choices. -/

namespace Sys2Proof.Machine

/-! ### Objects of the store (R509, R510) -/

/-- The objects of one type. -/
def storeObjs (s : State) (ty : Nat) : List StoreRec :=
  standing ((storeBank s).recs.filter fun r => r.rtype = ty)

/-- The data of one object. -/
def storeGet (s : State) (ty : Nat) (key : List Nat) : Option (List Word) :=
  ((storeObjs s ty).find? fun r => r.key = key).map StoreRec.data

/-- The descriptors as Welana knows them: those of the store, and those that the boot sequencer wrote for tenant 0 (R568). -/
def cfgDescs (s : State) : List Desc :=
  let os := storeObjs s 2
  os.map (fun r => { t := r.key.getD 0 0, i := r.key.getD 1 0, d0 := r.data.getD 0 0, d1 := r.data.getD 1 0 })
    ++ (allDescs s).filter fun d => d.t = 0 && !(os.any fun r => r.key = [d.t, d.i])

/-- One of them; absent where there is none. -/
def cfgDesc (s : State) (t i : Nat) : Word × Word :=
  match (cfgDescs s).find? fun d => d.t = t && d.i = i with
  | some d => (d.d0, d.d1)
  | none => (0, 0)

/-! ### Writes and choices -/

/-- A write by Welana of a control-window word. -/
def welW (off : Nat) (w : Word) (s : State) : State := (cwWrite1 .mgmt 2 off w s).2

def welWs (off : Nat) : List Word → State → State
  | [], s => s
  | w :: ws, s => welWs (off + 1) ws (welW off w s)

/-- One of some candidates: Welana's choice, the same for the same candidates (R538; log entry 38). -/
def choose (xs : List Nat) : Option Nat := xs[Config.freeChoice xs % xs.length]?

/-! ### What shedding and retirement take from a tenant (R392, R607) -/

/-- Both sets of a channel are aborted, and it is unbound (R392): at once, or, where its transfer runs, when that has ended with its
outstanding requests answered (R405). DESIGN CHOICE, log entry 91: the result of the command does not wait for that. -/
def unbindChan (c n : Nat) (s : State) : State :=
  let s := disarmShadow c n s
  if (s.mover c).cur.map Transfer.ch = some n then
    modCur c (fun t => { t with unbind := true }) (abortChan c n s)
  else (abortChan c n s).cs (rMVBIND c n) 0

/-- The channels bound to tenant t. -/
def tenChans (s : State) (t : Nat) : List (Nat × Nat) :=
  (List.range 192).filterMap fun i =>
    if chBound s (i / 16) (i % 16) && s.cf (rMVBIND (i / 16) (i % 16)) 0 11 = t then some (i / 16, i % 16) else none

/-- The end of a grant (R607). -/
def endGrant (g : Nat) (s : State) : State :=
  match tget none s.wel.grants g with
  | none => s
  | some k =>
    let s := (List.range 144).foldl (fun s e => if (s.e e).run.haltGrant = g then releaseEngine e none s else s) s
    let s := (List.range 16).foldl (fun s i =>
      let b := dbgBlk + 0o1000 + 4 * i
      if s.cb b 0 && s.cf b 18 25 = g then s.css b [0, 0, 0] else s) s
    notice k.tenant 7 g (lifeSync (s.modWel fun w => { w with grants := tset none w.grants g none }))

/-- Channels and grants of a tenant go (R392, R607). -/
def strip (t : Nat) (s : State) : State :=
  let s := (tenChans s t).foldl (fun s c => unbindChan c.1 c.2 s) s
  (s.wel.grants.filter fun p => match p.2 with
    | some k => k.tenant = t
    | none => false).foldl (fun s p => endGrant p.1 s) s

end Sys2Proof.Machine
end

