-- ==== Sys2Proof/Machine/Recovery.lean ====
section
/-! DEFINITION. Failures of engines, clusters, channels, movers and management engines, and their recovery (R208, R229, R235,
R263, R313 to R315, R341 to R343, R477, R513 to R520, R523, R649). -/

namespace Sys2Proof.Machine

/-! ### Reclaim (R341) -/

/-- What engine e sent and no home has accepted, and what is on its way to it. PUBLISH follows the commit point and stands
(R314). -/
def ofEngine (e : Nat) : Msg → Bool
  | .req a _ _ _ => a = .engine e
  | .modN x _ => x = e
  | .wbk x _ _ _ => x = e
  | .wrt x _ _ _ _ _ => x = e
  | .watch x _ _ => x = e
  | .publish _ _ _ => false
  | .data a _ _ _ _ _ => a = .engine e
  | .ack a _ _ => a = .engine e
  | .nak a _ => a = .engine e
  | .fail a _ _ => a = .engine e
  | .inv x _ _ => x = e
  | .fwds x _ => x = e
  | .fwdx x _ => x = e
  | .rcl x _ => x = e
  | .rsvl x _ => x = e
  | .iack _ _ => false
  | .fdata x _ _ _ _ => x = e
  | .fnone x _ => x = e

/-- The lines whose INV or RCL engine e had still to accept. -/
def invLines (e : Nat) (s : State) : List Nat :=
  (s.home.net.filterMap fun m => match m with
    | .inv x l _ => if x = e then some l else none
    | .rcl x l => if x = e then some l else none
    | _ => none).eraseDups

/-- A line that engine e owned: E becomes I; M becomes Lost and is poisoned in DRAM, in both copies when it is mirrored;
HSTAT and HLOST tell. -/
def reclaimLine (e l : Nat) (x : HLine) (s : State) : State :=
  if x.own ≠ some e then s
  else if x.st = .e then s.setHl l (some { x with st := .i, owner := 0 })
  else
    let y : HLine := { x with st := .lost, owner := 0, poison := true, ws := zeroLine, chk := poisonCheck }
    (hstat (homeOf l) 0 8 (memPoison l (s.setHl l (some y)))).csf (rHLOST (homeOf l)) 0 31 l

/-- A transaction that engine e asked for ends without giving it the line. -/
def orphan (e : Nat) (t : Txn) : Txn :=
  if t.req ≠ .engine e then t
  else match t.kind with
    | .rds .. => { t with kind := .rdo }
    | .rdx => { t with kind := .rdo }
    | .upg => { t with kind := .rdo }
    | .rdc => { t with kind := .rdo }
    | _ => t

/-- An answer of an engine of cluster c to a recall of line l is on its way: a WBK, or FNONE (R329). -/
def repliesOut (s : State) (c l : Nat) : Bool :=
  (s.home.net ++ s.home.retry.map Ticket.msg).any fun m => match m with
    | .wbk x y _ _ => x / 12 = c && y = l
    | .fnone x y => x / 12 = c && y = l
    | _ => false

/-- The reclaim of R341 at every home slice: unaccepted messages go, transactions that await the engine go on as after FNONE
or IACK, its lines, T copies, watches and tickets are taken back. -/
def reclaim (e : Nat) (s : State) : State :=
  let ls := invLines e s
  let s := closeTxns (fun t => t.unc && t.req = .engine e) s
  let s := s.modHome fun h =>
    { h with net := h.net.filter fun m => !ofEngine e m,
             retry := h.retry.filter fun t => t.req ≠ .engine e,
             watches := h.watches.filter fun w => w.e ≠ e,
             tents := h.tents.map fun t => if t.holder = some e then { t with holder := none } else t,
             txns := h.txns.map (orphan e) }
  let s := s.home.lines.foldl (fun s p => match p.2 with
    | some x => reclaimLine e p.1 x s
    | none => s) s
  let s := ls.foldl (fun s l => clusterAck e l s) s
  let recalls := (s.home.txns.filter fun t => t.kind = .evict && t.acks.contains (e / 12)).map Txn.line
  let s := recalls.foldl (fun s l => if repliesOut s (e / 12) l then s else settle l (recalled (e / 12) l s)) s
  let mine := (s.home.txns.filter fun t => t.owner = some e).map Txn.line
  let s := s.modHome fun h => { h with txns := h.txns.map fun t => if t.owner = some e then { t with owner := none } else t }
  mine.foldl (fun s l => settle l s) s

/-! ### Re-runs (R313) -/

/-- The deque that takes entries for engine h: its own while h is in service, else that of the first engine in service in the
order of R286. -/
def liveHome (s : State) (h : Nat) : Nat :=
  ((stealOrder s h).find? fun e => (s.e e).run.inService).getD h

/-- The activation x starts anew (R313): its work is discarded, NRERUN rises, STATE becomes 011, and a re-run entry with the
full budget is inserted. -/
def rerun (x : Entry) (s : State) : State :=
  let k := x.ctx
  let s := discardCtx k s
  let s := setCtxState k 3 (s.csf (rCtx k 29) 18 35 (s.cf (rCtx k 29) 18 35 + 1))
  let s := s.csf rFLTREC 17 24 (min 255 (s.cf rFLTREC 17 24 + 1))
  let y : Entry := { x with kind := .rerun, remain := recBudget x.recw, carry := { fails := [], grans := [], ndef := 0 } }
  placeEntry (liveHome s (recHome x.recw)) y s

/-- The entries of the deque and overflow list of a retired engine move, in their order (R515). -/
def moveEntries (e : Nat) (s : State) : State :=
  let xs := s.deque e ++ s.overflow e
  let d := liveHome s e
  if d = e then s
  else xs.foldl (fun s x => placeEntry d x s) ((s.setDeque e []).setOverflow e [])

/-! ### Retirement (R515) -/

/-- The engine leaves service: its clocks stop, its caches and buffers are lost. An activation that it ran, or that yielded
while stores of it were still unsettled there, is to be re-run. -/
def engineOut (e cause : Nat) (s : State) : List Entry × State :=
  let xs := (s.e e).run.entry.toList ++ (s.rel.yielded.filter fun p => p.1 = e).map Prod.snd
  let s := endRun e s
  (xs, s.modE e fun g => g.resetScope.modRun fun r =>
    { r with inService := false, inReset := true, halted := false, haltGrant := 0, dlHeld := none, quiet := 0,
             stepMode := .run, bpSkip := false, resuming := none, retCause := cause })

/-- Engines leave service together; their lines are reclaimed, their activations re-run and their entries moved. -/
def retireEngines (es : List Nat) (cause : Nat) (s : State) : State :=
  let r := es.foldl (fun (p : List Entry × State) e =>
    let q := engineOut e cause p.2
    (p.1 ++ q.1, q.2)) (([] : List Entry), s)
  let s := es.foldl (fun s e => reclaim e s) r.2
  let s := es.foldl (fun s e => moveEntries e s) (r.1.foldl (fun s x => rerun x s) s)
  s.modWel fun w => { w with failed := w.failed.filter (fun f => !es.contains f.e), rerunDue := true }

/-- The twelve engines of a cluster retire together; the home slice and the mover stay (R517, R344). -/
def retireCluster (c cause : Nat) (s : State) : State :=
  let s := fltRec 1 c cause s
  let s := retireEngines ((List.range 12).map (12 * c + ·) |>.filter fun e => (s.e e).run.inService) 0 s
  jEvent 0o401 0 [mkW 1, mkW c]
    (s.modWel fun w => { w with clusterDead := if w.clusterDead.contains c then w.clusterDead else w.clusterDead ++ [c] })

/-- Instants of the last retirements of engines of cluster c, this one included; three within 100 µs retire the cluster
(R513). -/
def clusterBurst (c : Nat) (s : State) : State :=
  let now := s.net.devTime
  let ts := ((tget [] s.wel.retireTimes c).filter fun t => decide (now ≤ t + 100 * usU)) ++ [now]
  let s := s.modWel fun w => { w with retireTimes := tset [] w.retireTimes c ts }
  if 3 ≤ ts.length && !s.wel.clusterDead.contains c then retireCluster c 6 s else s

/-- ENGINE_FAILURE_RECOVERY (R515): the engine whose failure was detected retires. -/
def execEngineFailureRecovery (e : Nat) (s : State) : Host.Outcome State Fault Refusal :=
  onEngine e true
    (match s.wel.failed.find? fun f => f.e = e with
     | some f =>
       clusterBurst (e / 12) (jEvent 0o401 0 [mkW 0, mkW e] (retireEngines [e] f.cause s))
     | none => s)

/-! ### Detection (R513, R514) -/

/-- The engine works, so that its failure can be detected: in service, out of reset, no failure detected before. -/
def canFail (s : State) (e : Nat) : Bool :=
  (s.e e).run.inService && !(s.e e).run.inReset && !(s.wel.failed.any fun f => f.e = e)

/-- COLLAR_MISMATCH (R208): the engine stops issuing in the same cycle; cause 01. An engine that is halted, waits in Pearl or
lies in Slate executes nothing that the collar compares. -/
def execCollarMismatch (e : Nat) (s : State) : Host.Outcome State Fault Refusal :=
  onEngine e true
    (if canFail s e && !(s.e e).run.halted && !(s.e e).run.pearl && !s.sys.slate.contains (e / 12) then
       failEngine e 1 (s.modE e fun g => g.modRun fun r => { r with inReset := true })
     else s)

/-- ENGINE_SILENT (R514): three heartbeats in a row fail to arrive; cause 02. The monitor does not act on a halted engine, nor
within 64 µs after its release (R600), nor on one in Pearl or Slate (R611). -/
def execEngineSilent (e : Nat) (s : State) : Host.Outcome State Fault Refusal :=
  onEngine e true
    (if canFail s e && !(s.e e).run.halted && !(s.e e).run.pearl && !s.sys.slate.contains (e / 12) then
       failEngine e 2 ((bringTo (max (s.net.devTime + 6 * usU) (s.e e).run.quiet) s).modE e
         fun g => g.modRun fun r => { r with inReset := true })
     else s)

/-- CLUSTER_DOMAIN_LOST (R517): detected within 1 µs; cause 06. -/
def execClusterDomainLost (c : Nat) (s : State) : Host.Outcome State Fault Refusal :=
  if 12 ≤ c then .fault .noSuchUnit
  else .next (if s.wel.clusterDead.contains c then s else retireCluster c 6 (bringTo (s.net.devTime + usU) s))

/-! ### Lines that Welana rewrites (R518, R649) -/

/-- A line of tenant 0: no segment of another tenant covers it. -/
def tenant0Line (s : State) (l : Nat) : Bool := !((allDescs s).any fun d => d.owner ≠ 0 && d.covers l)

/-- LOST_LINE_REWRITE (R518): Welana's own copy `ws` of a Lost line of tenant 0. A line under a transaction is rewritten
later. -/
def execLostLineRewrite (line : Nat) (ws : List Word) (s : State) : Host.Outcome State Fault Refusal :=
  if !(decide (line < 2 ^ 32 ∧ ws.length = 8)) then .fault .noSuchUnit
  else .next (match s.hl line with
    | some x => if x.st = .lost && tenant0Line s line && !lineHeld s line then (cohMerge line full32 ws s).2 else s
    | none => s)

/-- DESCRIPTOR_LINE_REWRITE (R649): a poisoned line of the descriptor area is written from the configuration store, and SEGINV
is executed for its four descriptors. -/
def execDescriptorLineRewrite (line : Nat) (s : State) : Host.Outcome State Fault Refusal :=
  if 2 ^ 32 ≤ line then .fault .noSuchUnit
  else .next (
    if !(inDt s line && (peekLine s line).2) || lineHeld s line then s
    else
      let n := 4 * (line - dtFirst s)
      let ds := (List.range 4).map fun k => cfgDesc s ((n + k) / 256) ((n + k) % 256)
      let s := (cohMerge line full32 (ds.flatMap fun d => [d.1, d.2]) s).2
      (List.range 4).foldl (fun s k => seginvDev ((n + k) / 256) ((n + k) % 256) s) s)

/-! ### Other units -/

/-- MEMORY_CHANNEL_RETIREMENT (R520): the channel that failed is retired. Reads that wait at it are answered from the
surviving copy or poisoned when they are made again. -/
def execMemoryChannelRetirement (ch : Nat) (s : State) : Host.Outcome State Fault Refusal :=
  if 4 ≤ ch then .fault .noSuchUnit
  else .next (if unitFailed s 2 ch then jEvent 0o401 0 [mkW 2, mkW ch] (retireChannel ch s) else s)

/-- MOVER_FAILURE (R513, R523): the check code on the mover's request path; cause 15. Its transfers end with error 16. -/
def execMoverFailure (c : Nat) (s : State) : Host.Outcome State Fault Refusal :=
  if 12 ≤ c then .fault .noSuchUnit
  else .next (
    if (tget Mover.reset s.movers c).retired then s
    else jEvent 0o401 0 [mkW 6, mkW c] (retireMover c (fltRec 6 c 0o15 (bringTo (s.net.devTime + usU) s))))

/-- A management engine leaves service: it is reset, which clears the lock of its code area (R562). -/
def mpDown (u : Nat) (s : State) : State :=
  let s := s.modWel fun w => { w with mpUp := tset false w.mpUp u false }
  { s with boot := if u = 0 then { s.boot with codeLock0 := false } else { s.boot with codeLock1 := false } }

/-- The standby management engine takes over (R477, R479): ACT changes, the silent engine is retired, TKO counts. Every change
in this model is whole, so no shadow record is half applied; the queue goes on. -/
def takeOver (s : State) : State :=
  let a := s.cf rMPSTAT 0 0
  let s := ((s.csf rMPSTAT 0 0 (1 - a)).csf rMPSTAT 1 2 0).csat rMPSTAT 3 14
  jEvent 0o405 0 [mkW (1 - a)] s

end Sys2Proof.Machine
end

