-- ==== Sys2Proof/Machine/Admit.lean ====
section
/-! DEFINITION. Admission (R369 to R374, R379, R381, R385), shedding and readmission (R386 to R389), and the HOME of contexts
whose home engine is lost (R529). -/

namespace Sys2Proof.Machine

/-! ### Pools (R371, R372) -/

/-- POOL of R498. -/
def Pool.num : Pool → Nat
  | .shared g => g
  | .sealed_ i => 64 + i

/-- The clusters of a group as CLMASK gives them. -/
def groupMask (s : State) (g : Nat) : Nat :=
  (List.range 12).foldl (fun m c => if groupOf s c = g then m + 2 ^ (11 - c) else m) 0

def tenTq (s : State) (t : Nat) : Nat := s.cf (rTen t 0) 13 16

def pools (s : State) : List Pool :=
  (groupsUsed s).map .shared ++ ((tenList s).filter (tenSealed s)).map fun t => .sealed_ (tenSidx s t)

def natMax (xs : List Nat) : Nat := xs.foldl max 0

/-- The capacity of a pool: its engines in service less the most of them that lie in one cluster. -/
def capacity (s : State) (p : Pool) : Nat :=
  let es := (poolEngs s p).filter fun e => (s.e e).run.inService
  es.length - natMax ((List.range 12).map fun c => (es.filter fun e => e / 12 = c).length)

/-! ### Occupancy (R369, R370, R374) -/

def classOf (ws : List Word) : Nat := if recPer ws ≤ 40 then 0 else if recPer ws ≤ 40000 then 1 else 2
def clsFrame (k : Nat) : Nat := if k = 0 then 40 else if k = 1 then 40000 else 24000000

/-- The span in ticks (R370). -/
def spanOf (ws : List Word) : Nat := if recDl ws = 0 then recPer ws else (recDl ws + 249) / 250

/-- The first ticks of the activations of a context in a frame. -/
def startsIn (frame : Nat) (ws : List Word) : List Nat :=
  (List.range (frame / recPer ws)).map fun n => (recPh ws + n * recPer ws) % frame

/-- How often the activations of a context cover tick j of the frame. -/
def coverAt (frame j : Nat) (ws : List Word) : Nat :=
  ((startsIn frame ws).map fun a =>
    let d := (j + frame - a) % frame
    if d < spanOf ws then (spanOf ws - 1 - d) / frame + 1 else 0).sum

/-- The maximum occupancy of some contexts over a frame; it is reached where some activation begins. -/
def maxOcc (frame : Nat) (cs : List (List Word)) : Nat :=
  natMax ((cs.flatMap (startsIn frame)).map fun j => (cs.map (coverAt frame j)).sum)

/-- The maximum occupancy of those of some contexts that belong to class k. -/
def classOcc (k : Nat) (cs : List (List Word)) : Nat := maxOcc (clsFrame k) (cs.filter fun ws => classOf ws = k)

/-- The contexts that count: armed, live, or staged; but for those of the tenants in `out` (R374, R388). -/
def admCtxs (s : State) (out : List Nat) : List Nat :=
  (ctxList s).filter fun k => (decide (2 ≤ ctxState s k) || ctxStaged s k) && !out.contains (ctxTenant s k)

/-- The pools in which a context counts (R371). -/
def poolsOf (s : State) (k : Nat) : List Pool :=
  if tenSealed s (ctxTenant s k) then [.sealed_ (tenSidx s (ctxTenant s k))]
  else
    let m := recF (ctxWords s k) 1 8 19
    match (groupsUsed s).find? fun g => groupMask s g = m with
    | some g => [.shared g]
    | none => ((groupsUsed s).filter fun g => Nat.land (groupMask s g) m ≠ 0).map .shared

/-- The need of a pool. -/
def need (s : State) (out : List Nat) (p : Pool) : Nat :=
  let cs := ((admCtxs s out).filter fun k => (poolsOf s k).contains p).map (ctxWords s)
  classOcc 0 cs + classOcc 1 cs + classOcc 2 cs

/-! ### The context's own tests (R371, R373, R382) -/

/-- HOME lies in the pool of the context, and its masks are as R371 has them. -/
def masksOk (s : State) (k : Nat) : Bool :=
  let ws := ctxWords s k
  let t := ctxTenant s k
  if tenSealed s t then
    let es := poolEngs s (.sealed_ (tenSidx s t))
    es.all (admits ws) && es.contains (recHome ws)
  else
    recF ws 1 20 31 = 4095 && (groupsUsed s).any (fun g => groupMask s g = recF ws 1 8 19)
      && (match poolsOf s k with
        | [p] => (poolEngs s p).contains (recHome ws)
        | _ => false)

/-- The relative deadline in sixty-fourths of a nanosecond. -/
def dlTime (ws : List Word) : Nat := if recDl ws = 0 then recPer ws * tickU else recDl ws * dlU

/-- What Welana asks of every context that it creates or changes, dormant or armed (R369, R371, R382): PER divides the frame of its
class, its masks are a group's, and a sealed tenant's HOME and masks fit its engines. -/
def shapeOk (s : State) (k : Nat) : Bool :=
  let ws := ctxWords s k
  clsFrame (classOf ws) % recPer ws = 0 &&
    if tenSealed s (ctxTenant s k) then masksOk s k
    else recF ws 1 20 31 = 4095 && (groupsUsed s).any fun g => groupMask s g = recF ws 1 8 19

def ownOk (s : State) (k : Nat) : Bool :=
  let ws := ctxWords s k
  decide (clsFrame (classOf ws) % recPer ws = 0) && decide (64 * recBudget ws + 9 * 7 * usU ≤ 9 * dlTime ws)
    && masksOk s k

/-- The contexts homed on engine h. -/
def homedOn (s : State) (out : List Nat) (h : Nat) : List Nat :=
  (admCtxs s out).filter fun k => recHome (ctxWords s k) = h

/-- The most contexts homed on an engine whose spans cover one tick; a list of at most 64 is not examined. -/
def homeLoad (s : State) (out : List Nat) (h : Nat) : Nat :=
  let ks := homedOn s out h
  if ks.length ≤ 64 then ks.length
  else
    let cs := ks.map (ctxWords s)
    natMax ((cs.flatMap (startsIn (clsFrame 2))).map fun j => (cs.filter fun ws => decide (coverAt (clsFrame 2) j ws ≠ 0)).length)

/-- The engines over the home limit. -/
def homesOver (s : State) (out : List Nat) : List Nat := (List.range 144).filter fun h => decide (64 < homeLoad s out h)

/-! ### Home-cache ways (R379) -/

/-- Joins overlapping and adjoining intervals of lines, given by rising first line. -/
def joinIv : List (Nat × Nat) → List (Nat × Nat)
  | [] => []
  | p :: t => match joinIv t with
    | q :: r => if q.1 ≤ p.2 then (p.1, max p.2 q.2) :: r else p :: q :: r
    | [] => [p]

def insIv (p : Nat × Nat) : List (Nat × Nat) → List (Nat × Nat)
  | [] => [p]
  | q :: t => if p.1 ≤ q.1 then p :: q :: t else q :: insIv p t

/-- The lines of the write-enabled data segments of tenant t, as half-open intervals. -/
def dataIvs (s : State) (t : Nat) : List (Nat × Nat) :=
  joinIv (((cfgDescs s).filter fun d => d.owner = t && d.typ = tyData && bit d.d1 4).foldl (fun l d =>
    insIv (d.base / 8, (d.base + d.size + 7) / 8) l) [])

/-- The line of home h in the twelve lines of block b. -/
def blockLine (h b : Nat) : Nat :=
  ((List.range 12).find? fun r => homeOf (12 * b + r) = h).getD 0 + 12 * b

/-- Lines of an interval with home h and set x: every block of twelve lines holds one line of each home. -/
def linesAt (h x : Nat) (iv : Nat × Nat) : Nat :=
  if iv.2 ≤ iv.1 then 0
  else
    let b0 := iv.1 / 12
    let b1 := (iv.2 - 1) / 12
    let inIv := fun (b : Nat) => decide (b % 4096 = x ∧ iv.1 ≤ blockLine h b ∧ blockLine h b < iv.2)
    let ends := (if inIv b0 then 1 else 0) + (if b1 ≠ b0 && inIv b1 then 1 else 0)
    -- blocks strictly between, congruent to x
    let lo := b0 + 1
    let upTo := fun (n : Nat) => (n + 4095 - x) / 4096
    ends + (if lo < b1 then upTo b1 - upTo lo else 0)

/-- The shared ways of the sets with index x. -/
def sharedWays (s : State) (x : Nat) : Nat :=
  12 + ((List.range 4).filter fun w => !((tenList s).any fun u => blockBit s u (16 * w + x / 256))).length

/-- What the non-sealed tenants can hold in one set. -/
def setNeed (ts : List (Nat × List (Nat × Nat))) (h x : Nat) : Nat :=
  (ts.map fun (p : Nat × List (Nat × Nat)) => min p.1 ((p.2.map (linesAt h x)).sum)).sum

def wayTenants (s : State) (out : List Nat) : List (Nat × List (Nat × Nat)) :=
  ((tenList s).filter fun t => !tenSealed s t && !out.contains t && (tenState s t = 1 || tenLive s t)).map fun t =>
    (tenTq s t, dataIvs s t)

/-- The sets that fail the home-way test, by home and index. -/
def waysOver (s : State) (out : List Nat) : List (Nat × Nat) :=
  let ts := wayTenants s out
  if (ts.map Prod.fst).sum ≤ 12 then []
  else (List.range 4096).flatMap fun x =>
    let n := sharedWays s x
    ((List.range 12).filter fun h => decide (n < setNeed ts h x)).map fun h => (h, x)

/-! ### Memory slots (R380, R381, R528) -/

/-- Slot i of the map: the sealed index that it is dedicated to. -/
def slotOwner (s : State) (i : Nat) : Option Nat :=
  let a := 9 * (i % 4)
  let w := s.cg (rSLOTMAP (i / 4))
  if bit w a then some (fld w (a + 1) (a + 6)) else none

def slotsOf (s : State) (i : Nat) : List Nat := (List.range 256).filter fun k => slotOwner s k = some i

/-- Dedicated slots, those of rebuilds among them. -/
def slotsUsedBy (s : State) (out : List Nat) : Nat :=
  let gone := (out.filter (tenSealed s)).map (tenSidx s)
  ((List.range 256).filter fun k => match slotOwner s k with
    | some i => !gone.contains i
    | none => false).length + 16 * s.mem.restoring.length

/-- The sealed tenants that hold fewer slots than their engines require. -/
def slotsShort (s : State) (out : List Nat) : List Nat :=
  (tenList s).filter fun t => tenSealed s t && tenState s t = 1 && !out.contains t &&
    decide ((slotsOf s (tenSidx s t)).length < ((poolEngs s (.sealed_ (tenSidx s t))).length + 3) / 4)

def slotsOk (s : State) (out : List Nat) : Bool := decide (slotsUsedBy s out ≤ 64) && (slotsShort s out).isEmpty

/-! ### The run (R385, R498) -/

/-- The pools whose need exceeds their capacity. -/
def poolsOver (s : State) (out : List Nat) : List Pool := (pools s).filter fun p => decide (capacity s p < need s out p)

/-- The first test that fails, by its POOL number; `own` are the contexts whose own tests are made. -/
def admission (s : State) (out own : List Nat) : Option Nat :=
  if own.any fun k => !ownOk s k then some 0o203
  else if !(homesOver s out).isEmpty then some 0o202
  else match poolsOver s out with
    | p :: _ => some p.num
    | [] =>
      if !(waysOver s out).isEmpty then some 0o200
      else if !slotsOk s out then some 0o201
      else none

/-- OCC0 to OCC2 of a tenant at an admission. -/
def occSync (t : Nat) (s : State) : State :=
  let cs := ((admCtxs s []).filter fun k => ctxTenant s k = t).map (ctxWords s)
  s.cs (rTen t 2) (place 0 11 (classOcc 0 cs) ||| place 12 23 (classOcc 1 cs) ||| place 24 35 (classOcc 2 cs))

/-! ### Shedding (R387, R388) -/

def tenCrit (s : State) (t : Nat) : Nat := s.cf (rTen t 0) 9 12
def tenAseq (s : State) (t : Nat) : Nat := (s.cg (rTen t 1)).toNat

/-- The tenants that a shed can relieve the first failing test of. -/
def relievers (s : State) (out : List Nat) : List Nat :=
  let adm := (tenList s).filter fun t => t ≠ 0 && tenState s t = 1 && !out.contains t
  let po := poolsOver s out
  let hs := homesOver s out
  if !hs.isEmpty then adm.filter fun t => hs.any fun h => (homedOn s out h).any fun k => ctxTenant s k = t
  else match po with
  | p :: _ => adm.filter fun t => (admCtxs s out).any fun k => ctxTenant s k = t && (poolsOf s k).contains p
  | [] =>
    match waysOver s out with
    | x :: r => adm.filter fun t => !tenSealed s t && (x :: r).any fun (y : Nat × Nat) =>
        ((dataIvs s t).map (linesAt y.1 y.2)).sum ≠ 0
    | [] => if slotsOk s out then [] else adm.filter fun t => tenSealed s t && !(slotsOf s (tenSidx s t)).isEmpty

/-- Lowest CRIT first, then highest ASEQ. -/
def shedBefore (s : State) (t u : Nat) : Bool :=
  decide (tenCrit s t < tenCrit s u) || (tenCrit s t = tenCrit s u && decide (tenAseq s u < tenAseq s t))

def firstShed (s : State) : List Nat → Option Nat
  | [] => none
  | t :: r => match firstShed s r with
    | some u => some (if shedBefore s u t then u else t)
    | none => some t

/-- A tenant is shed (R388). -/
def shed (t : Nat) (s : State) : State :=
  let s := s.csf (rTen t 0) 0 1 2
  let s := s.cs (rTen t 6) (s.cg (rTen t 6) + 1)
  let s := notice t 1 0 (jEvent 0o403 t [mkW t, s.cg (rTen t 6)] s)
  let s := (tenCtxs s t).foldl (fun s k =>
    if ctxState s k = 2 then welW (rCtx k 0) (setFld (s.cg (rCtx k 0)) 12 14 1) s
    else disSync k (s.csf (rCtx k 0) 22 22 1)) s
  (strip t s).modWel fun w => { w with shedOrder := w.shedOrder ++ [t] }

/-- For rising wished slots, the first free slot at or after each that no earlier one took, none beyond d after it. `f` are free
slots, rising. -/
def slotsFrom (d : Nat) : List Nat → List Nat → Option (List Nat)
  | [], _ => some []
  | w :: ws, f => match f.dropWhile (· < w) with
    | k :: f => if k ≤ w + d then (slotsFrom d ws f).map (k :: ·) else none
    | [] => none

/-- n of the free slots at even distances from some first one, each moved on by at most d to a free slot. -/
def slotsWithin (f : List Nat) (n d : Nat) : Option (List Nat) :=
  (List.range 256).findSome? fun o =>
    match slotsFrom d ((List.range n).map fun i => o + i * 256 / n) (f ++ f.map (· + 256) ++ f.map (· + 512)) with
    | some (k :: ks) => if (ks.getLastD k) < k + 256 then some ((k :: ks).map (· % 256)) else none
    | r => r

/-- n of the free slots, spaced as evenly as they allow (R381): with the least move from even distances (DESIGN CHOICE: log entry
77). -/
def spreadSlots (s : State) (n : Nat) : List Nat :=
  let f := (List.range 256).filter fun k => (slotOwner s k).isNone
  ((List.range 256).findSome? (slotsWithin f n)).getD (f.take n)

/-- A sealed tenant's slots become free. -/
def freeSlots (i : Nat) (s : State) : State :=
  (slotsOf s i).foldl (fun s k => s.csf (rSLOTMAP (k / 4)) (9 * (k % 4)) (9 * (k % 4) + 6) 0) s

/-- Some slots become those of a sealed tenant. -/
def takeSlots (t : Nat) (sl : List Nat) (s : State) : State :=
  let s := sl.foldl (fun s k => s.csf (rSLOTMAP (k / 4)) (9 * (k % 4)) (9 * (k % 4) + 6) (64 + tenSidx s t)) s
  s.csf (rTen t 5) 8 15 sl.length

/-- Dedicates engine e to a sealed tenant. -/
def dedicate (t e : Nat) (s : State) : State :=
  let s := s.cs (rDEDIC e) (place 0 0 1 ||| place 1 6 (tenSidx s t) ||| place 7 18 t)
  s.csf (rTen t 5) 0 7 (poolEngs s (.sealed_ (tenSidx s t))).length

/-- Dedicates a further engine to a sealed tenant, with the slots that R381 then asks for, spread anew (log entry 77). -/
def dedicateMore (t e : Nat) (s : State) : State :=
  let s := dedicate t e s
  let i := tenSidx s t
  let n := ((poolEngs s (.sealed_ i)).length + 3) / 4
  if n ≤ (slotsOf s i).length then s
  else
    let s := freeSlots i s
    takeSlots t (spreadSlots s n) s

/-- A free engine for a sealed tenant's failing pool (R387): in service, in a cluster where the tenant holds engines, with
TID.ACT at 0 (R382), admitted by its contexts' masks, and such that the shared pools and the slots (R381) still pass. -/
def spareEngine (s : State) (out : List Nat) (t : Nat) : Option Nat :=
  let mine := poolEngs s (.sealed_ (tenSidx s t))
  (List.range 144).find? fun e =>
    (s.e e).run.inService && !s.cb (rDEDIC e) 0 && !(s.e e).act && mine.any (fun m => m / 12 = e / 12)
      && (tenCtxs s t).all (fun k => admits (ctxWords s k) e)
      && (let s' := dedicateMore t e s
          slotsOk s' out && (poolsOver s' out).all fun p => match p with
            | .shared _ => false
            | .sealed_ _ => true)

/-- The tenant of a sealed pool. -/
def poolTenant (s : State) (i : Nat) : Option Nat := (tenList s).find? fun t => tenSealed s t && tenSidx s t = i

/-- Engines are added to failing sealed pools while there are spare ones. -/
def addSpares : Nat → List Nat → State → State
  | 0, _, s => s
  | n + 1, out, s =>
    let cand := (poolsOver s out).findSome? fun p => match p with
      | .sealed_ i => (poolTenant s i).bind fun t => (spareEngine s out t).map fun e => (t, e)
      | .shared _ => none
    match cand with
    | some (t, e) => addSpares n out (dedicateMore t e s)
    | none => s

/-- Sheds tenants one at a time until the run passes; `out` are those shed in this run, whose spans do not count in it. -/
def shedLoop : Nat → List Nat → State → State
  | 0, _, s => s
  | n + 1, out, s =>
    let s := addSpares 144 out s
    if (admission s out []).isNone then s
    else match firstShed s (relievers s out) with
      | some t => shedLoop n (out ++ [t]) (shed t s)
      | none => s

/-! ### HOME of contexts whose engine is lost (R529) -/

/-- The choice for context k. -/
def newHome (s : State) (k : Nat) : Option Nat :=
  let es := ((poolsOf s k).flatMap (poolEngs s)).filter fun e =>
    (s.e e).run.inService && admits (ctxWords s k) e
  let load := fun (e : Nat) => ((ctxList s).filter fun j => ctxState s j ≠ 0 && recHome (ctxWords s j) = e).length
  let ok := es.filter fun e => (homesOver (s.csf (rCtx k 1) 0 7 e) []).all (· ≠ e)
  let m := ok.foldl (fun b e => min b (load e)) (16384 + 1)
  ok.find? fun e => load e = m

/-- Ascending order. -/
def insNat (n : Nat) : List Nat → List Nat
  | [] => [n]
  | m :: t => if n ≤ m then n :: m :: t else m :: insNat n t

/-- HOME of every context whose home engine is out of service, in ascending order. -/
def rehome (s : State) : State :=
  ((ctxList s).foldr insNat []).foldl (fun s k =>
    if ctxState s k = 0 || (s.e (recHome (ctxWords s k))).run.inService then s
    else match newHome s k with
      | some e => s.csf (rCtx k 1) 0 7 e
      | none => s) s

/-- ADMISSION_RERUN (R386, R387, R529): the run after the loss of engines, and notice 004 to every admitted tenant. -/
def rerunAdmission (s : State) : State :=
  let s := shedLoop 4096 [] (rehome s)
  let unit := place 0 3 (s.cf rFLTREC 0 2) ||| place 4 11 (s.cf rFLTREC 3 10)
  let s := ((tenList s).filter fun t => t ≠ 0 && tenState s t = 1).foldl (fun s t => notice t 4 (fld unit 0 26) s) s
  s.modWel fun w => { w with rerunDue := false }

def execAdmissionRerun (s : State) : Host.Outcome State Fault Refusal :=
  .next (if s.wel.rerunDue && s.wel.failed.isEmpty then rerunAdmission s else s)

/-! ### Freeing and readmission (R388, R389) -/

/-- A tenant's dedicated engines, blocks and slots become free. -/
def freeDedication (t : Nat) (s : State) : State :=
  let i := tenSidx s t
  let s := (poolEngs s (.sealed_ i)).foldl (fun s e => s.cs (rDEDIC e) 0) s
  let s := freeSlots i s
  ((s.cs (rTen t 3) 0).cs (rTen t 4) 0).cs (rTen t 5) 0

/-- SHED_RESOURCES_FREE (R388): after the tenant's last activation. -/
def execShedResourcesFree (t : Nat) (s : State) : Host.Outcome State Fault Refusal :=
  if 4096 ≤ t then .fault .noSuchUnit
  else .next (if tenState s t = 2 && tenSealed s t && !tenLive s t then freeDedication t s else s)

/-- CONTEXT ARM's boundary for index 0: the first whose staging interval begins at least 1 ms from now (R500, R273). -/
def earliestBoundary (s : State) (k : Nat) : Nat :=
  let p := (s.cg (rCtx k 2)).toNat * tickU
  let h := (s.cg (rCtx k 3)).toNat * tickU
  let t := s.net.devTime + 1000 * usU + 2 * tickU
  if t ≤ h then 0 else (t - h + p - 1) / p

/-- NEXT is written, DIS cleared, and STATE becomes 010. -/
def armCtx (k n : Nat) (s : State) : State :=
  setCtxState k 2 ((s.cs2 (rCtx k 13) n).csf (rCtx k 0) 22 22 0)

/-- The dedication of a tenant as the store holds it: engines, blocks, slots (R509). -/
def dedWords (s : State) (t : Nat) : List Word :=
  let es := poolEngs s (.sealed_ (tenSidx s t))
  let sl := slotsOf s (tenSidx s t)
  let mask := fun (xs : List Nat) (w : Nat) => mkW ((xs.filter fun x => x / 36 = w).map fun x => 2 ^ (35 - x % 36)).sum
  (List.range 4).map (mask es) ++ [s.cg (rTen t 3), s.cg (rTen t 4)] ++ (List.range 8).map (mask sl)

/-- The lines in the ways of newly dedicated blocks leave the home caches: those that engines hold after their recall (R324). A line
that is busy or locked leaves when it is next obtained (R377). -/
def purgeWays (blocks : List Nat) (s : State) : State :=
  let mine := s.home.lines.filterMap fun p => match p.2 with
    | some x => if x.way < 4 && blocks.contains (16 * x.way + setOf p.1 / 256) && !x.busy && !x.lock then some p.1 else none
    | none => none
  mine.foldl (fun s l => match s.hl l with
    | none => s
    | some x => match sharerEngs s x ++ x.own.toList with
      | [] => dropEntry l s
      | es => startEvict .mgmt 0 l es s) s

/-- The numbers that mask words name. -/
def maskNums (ws : List Word) : List Nat := (List.range (36 * ws.length)).filter fun n => bit (ws.getD (n / 36) 0) (n % 36)

/-- Gives a sealed tenant the dedication of some mask words. -/
def dedicateAll (t : Nat) (ws : List Word) (s : State) : State :=
  let s := (maskNums (ws.take 4)).foldl (fun s e => dedicate t e s) s
  let s := (s.cs (rTen t 3) (ws.getD 4 0)).cs (rTen t 4) (ws.getD 5 0)
  purgeWays (maskNums ((ws.drop 4).take 2)) (takeSlots t (maskNums (ws.drop 6)) s)

/-- A dedication is free to be given: its engines, its blocks and its slots. -/
def dedFree (s : State) (ws : List Word) : Bool :=
  (maskNums (ws.take 4)).all (fun e => decide (e < 144) && !s.cb (rDEDIC e) 0 && !(s.e e).act)
    && (maskNums ((ws.drop 4).take 2)).all (fun b => !((tenList s).any fun u => blockBit s u b))
    && (maskNums (ws.drop 6)).all fun k => (slotOwner s k).isNone

/-- The state after a readmission of tenant t, where its dedication is still its own or free again. Its contexts that were
armed by command are armed again. -/
def readmitted (t : Nat) (s : State) : Option State :=
  let base :=
    if !tenSealed s t || !(poolEngs s (.sealed_ (tenSidx s t))).isEmpty then some s
    else match storeGet s 0o16 [t] with
      | some ws => if dedFree s ws then some (dedicateAll t ws s) else none
      | none => some s
  base.map fun s =>
    let s := (s.csf (rTen t 0) 0 1 1).modWel fun w => { w with tseq := w.tseq + 1, shedOrder := w.shedOrder.filter (· ≠ t) }
    let s := s.cs (rTen t 1) (mkW s.wel.tseq)
    (tenCtxs s t).foldl (fun s k =>
      let armed := match storeGet s 3 [k] with
        | some ws => fld (ws.headD 0) 12 14 = 2
        | none => false
      if !armed then s
      else if ctxLive s k || ctxStaged s k then s.csf (rCtx k 0) 22 22 0
      else armCtx k (earliestBoundary s k) s) s

/-- One readmission, journaled and told to the tenant. -/
def readmit (t : Nat) (s : State) : Option State :=
  (readmitted t s).bind fun s' =>
    if (admission s' [] (tenCtxs s' t |>.filter fun k => decide (2 ≤ ctxState s' k))).isSome then none
    else some (notice t 2 0 (jEvent 0o404 t [mkW t, s'.cg (rTen t 6)] (occSync t s')))

/-- Shed tenants are readmitted in the reverse of their shedding order, for as long as each passes (R389). -/
def readmitLoop : Nat → State → State
  | 0, s => s
  | n + 1, s => match s.wel.shedOrder.getLast? with
    | none => s
    | some t => match readmit t s with
      | some s' => readmitLoop n s'
      | none => s

/-- Admission after a restoration. -/
def restoreAdmission (s : State) : State := readmitLoop 4096 (shedLoop 4096 [] s)

end Sys2Proof.Machine
end

