-- ==== Sys2Proof/Machine/Alloc.lean ====
section
/-! DEFINITION. Where Welana places segments and images (R89, R353, R363, R383, R499, R502, R562). The place itself is Welana's
choice: any place that suits may be taken (log entry 38). -/

namespace Sys2Proof.Machine

/-! ### Sizes (R88, R89, R499) -/

/-- SCALE and LIMIT of the smallest size of at least n words that they express; none above 512 MW. -/
def sizeCode (n : Nat) : Option (Nat × Nat) :=
  let fits := fun (u : Nat) => (n + u - 1) / u
  if n = 0 then none
  else if n ≤ 16384 then some (0, n - 1)
  else if fits 8 ≤ 16384 then some (1, fits 8 - 1)
  else if fits 512 ≤ 16384 then some (2, fits 512 - 1)
  else if fits 32768 ≤ 16384 then some (3, fits 32768 - 1)
  else none

def unitOf (scale : Nat) : Nat := if scale = 0 then 1 else if scale = 1 then 8 else if scale = 2 then 512 else 32768

/-- The size that a code stands for. -/
def codedSize (c : Nat × Nat) : Nat := (c.2 + 1) * unitOf c.1

/-- The two words of a descriptor (R87, R88). -/
def mkDesc (mirror : Bool) (base ty rights t lvl : Nat) (c : Nat × Nat) : Word × Word :=
  (bitAt 0 mirror ||| place 1 35 base,
   place 0 2 ty ||| place 3 5 rights ||| place 6 17 t ||| place 18 19 lvl ||| place 20 21 c.1 ||| place 22 35 c.2)

/-! ### Used memory -/

/-- 2,097,152. -/
def mw2 : Nat := 2097152

/-- The largest code-type segment (R89). -/
def codeMax : Nat := 134217728

/-- The resident region of R567. -/
def resident (s : State) : Nat × Nat :=
  let a := dramWords s / mw2 * mw2
  (a - mw2, a)

/-- The program region and the primary area. -/
def prgRegion (s : State) : Nat × Nat :=
  let b := s.cf rPRGBND 0 17 * 65536
  (b, min (b + s.cf rPRGBND 18 35 * 65536) (dramWords s))

def mirRegion (s : State) : Nat × Nat :=
  let b := s.cf rMIRBND 0 17 * 65536
  (b, b + s.cf rMIRBND 18 35 * 65536)

/-- The shadow area of R357. -/
def shadowIv (s : State) : Nat × Nat :=
  let m := mirRegion s
  (m.2 + 128, m.2 + 128 + (m.2 - m.1))

/-- An engine in service has still to invalidate its L1 instruction cache as Welana asked (R532). -/
def invalDue (s : State) : Bool := (List.range 144).any fun e => (s.e e).run.inService && (s.e e).run.l1iInval

/-- Word intervals that nothing new may meet: segments in memory, the descriptor area, the resident region, the shadow area,
the words of replaced images while an engine may hold them in its L1 instruction cache (R532), and the lock windows. -/
def usedIvs (s : State) : List (Nat × Nat) :=
  let dt := s.cf rDTBASE 0 13 * mw2
  ((cfgDescs s).filter fun d => d.typ = tyData || d.typ = tyCode).map (fun d => (d.base / 8 * 8, d.base + d.size))
    ++ [(dt, dt + mw2), resident s] ++ [shadowIv s] ++ (if invalDue s then s.wel.freed else [])
    ++ ((List.range 16).filter fun i => s.cb (rLKW i) 0).map fun i =>
      (s.cf (rLKW i + 1) 1 35, s.cf (rLKW i + 1) 1 35 + (s.cg (rLKW i + 2)).toNat)

def clear_ (us : List (Nat × Nat)) (a n : Nat) : Bool := us.all fun u => decide (a + n ≤ u.1 ∨ u.2 ≤ a ∨ u.2 ≤ u.1)

/-- The mantle installs no descriptor that covers a word of the shadow area (R357). -/
def installOk (s : State) (d0 d1 : Word) : Bool :=
  !(fld d1 0 2 = tyData || fld d1 0 2 = tyCode) || clear_ [shadowIv s] (fld d0 1 35) (descSize d1)

/-- Installs a descriptor where that is so. -/
def installDesc (t i : Nat) (d : Word × Word) (s : State) : State := if installOk s d.1 d.2 then descWrite t i d.1 d.2 s else s

/-! ### Device-type segments (R215, R234, R265, R269, R360, R363, R391, R408) -/

/-- What only tenant 0's device-type descriptors cover, as half-open intervals of control-window offsets: counters, IPEND to MCAUSE,
control-store state, HSTAT and HLOST of each cluster, MCSC, the mover control areas, the Ethernet subsystem, the context store and
MPSTAT. -/
def devKept : List (Nat × Nat) :=
  ((List.range 12).flatMap fun c =>
      [(cluBlk c + 0o10000, cluBlk c + 0o11400), (cluBlk c + 0o12000, cluBlk c + 0o12140), (cluBlk c + 0o13000, cluBlk c + 0o13140),
       (rHSTAT c, rHSTAT c + 2), (movBlk c + 0o10000, movBlk c + 0o20000)])
    ++ ((List.range 4).map fun n => (rMCSC n 0, rMCSC n 0 + 2))
    ++ [(ethBlk, ctxBlk), (ctxBlk, mgmtBlk), (rMPSTAT, rMPSTAT + 1)]

/-- The windows of the channels that are not bound to tenant t. -/
def otherChans (s : State) (t : Nat) : List (Nat × Nat) :=
  (List.range 12).flatMap fun c =>
    ((List.range 16).filter fun n => !(chBound s c n && s.cf (rMVBIND c n) 0 11 = t)).map fun n => (chBlk c n, chBlk c n + 0o400)

/-- The lines of the control window that segments of tenants other than t and 0 touch, as word intervals. -/
def otherDevs (s : State) (t : Nat) : List (Nat × Nat) :=
  ((cfgDescs s).filter fun d => d.owner ≠ 0 && d.owner ≠ t && (d.typ = tyDevice || d.typ = tyMailbox)).map fun d =>
    (d.base / 8 * 8, (d.base + d.size + 7) / 8 * 8)

/-- The lines of the mailbox windows other than tenant t's, those of tenants not created yet among them, and of the debug mailbox, as
offsets (R363, R485). -/
def otherBoxes (t : Nat) : List (Nat × Nat) :=
  let w := rMbx t / 8 * 8
  [(rMbx 1, w), ((rMbx t + 96 + 7) / 8 * 8, rMPSTAT)]

/-- Whether n words at a may become a device-type segment of tenant t. -/
def devOk (s : State) (t a n : Nat) : Bool :=
  clear_ (otherChans s t) (a - ctlBase) n
    && (t = 0 || (clear_ (devKept ++ otherBoxes t) (a - ctlBase) n && clear_ (otherDevs s t) a n))

/-! ### Sealed tenants (R383) -/

/-- The block ranges that tenant t holds. -/
def blockRanges (s : State) (t : Nat) : List Nat := (List.range 16).filter fun r => (List.range 4).any fun w => blockBit s t (16 * w + r)

/-- Every line of a place lies in a block range of the tenant. -/
def placedOk (s : State) (t a n : Nat) : Bool :=
  !tenSealed s t ||
    (let rs := blockRanges s t
     let r0 := a / 8 / 3072
     let r1 := (a + n - 1) / 8 / 3072
     (List.range (min 16 (r1 - r0 + 1))).all fun k => rs.contains ((r0 + k) % 16))

/-! ### Places -/

/-- Whether n words at a suit tenant t within the region, outside `avoid`. -/
def suits (s : State) (t : Nat) (region : Nat × Nat) (avoid us : List (Nat × Nat)) (n a : Nat) : Bool :=
  a % 8 = 0 && decide (region.1 ≤ a ∧ a + n ≤ region.2 ∧ a + n ≤ dramWords s) && clear_ avoid a n && clear_ us a n && placedOk s t a n

/-- A place for n words: a freely proposed one where it suits, else the first that suits at an end of what is used. -/
def placeIn (t : Nat) (region : Nat × Nat) (avoid : List (Nat × Nat)) (n : Nat) (s : State) : Option Nat :=
  let us := usedIvs s
  let ends := (region.1 :: (us ++ avoid).map fun u => (u.2 + 7) / 8 * 8)
  let runs := if tenSealed s t then (List.range (region.2 / 24576 + 1)).map fun k => k * 24576 else []
  ((Config.freePlace us n % (dramWords s / 8 + 1) * 8) :: (ends ++ runs)).find? (suits s t region avoid us n)

/-- A place for a data segment (R63, R353, R499). -/
def placeData (t : Nat) (mirror : Bool) (n : Nat) (s : State) : Option Nat :=
  placeIn t (if mirror then mirRegion s else (0, dramWords s)) [prgRegion s] n s

/-- A place for a window (R562): in the program region for images that engines execute, else outside it. -/
def placeWin (code : Bool) (n : Nat) (s : State) : Option Nat :=
  if code then placeIn 0 (prgRegion s) [] n s else placeIn 0 (0, dramWords s) [prgRegion s] n s

/-- A lock window that is free. -/
def freeWin (s : State) : Option Nat := (List.range 16).find? fun i => !s.cb (rLKW i) 0

end Sys2Proof.Machine
end

