-- ==== Sys2Proof/Machine/Firmware.lean ====
section
/-! DEFINITION. Live replacement and restoration: control stores, the mantle, Welana, tenant code (R246, R260, R266 to R268,
R502, R519, R527, R530 to R534, R571, R572). -/

namespace Sys2Proof.Machine

/-! ### Image bodies (R266, R558, R565) -/

/-- The microwords of a body: twelve octets each, three to a line of 36 octets. -/
def bodyMicro (body : List Octet) (n : Nat) : Tbl Microword :=
  (List.range n).foldl (fun t m => tset 0 t m (BitVec.ofNat 96 (beNat (cut body (12 * m) 12)))) []

/-- The words of a body, two in nine octets. -/
def bodyWords (body : List Octet) : List Word := unpackWords (2 * (body.length / 9)) body

/-- The slot directory that follows the 86 lines of a customer image (log entry 39). -/
def bodyDir (body : List Octet) : Tbl Word :=
  let ws := unpackWords 32 (cut body (36 * 86) 144)
  (List.range 32).foldl (fun t i => tset 0 t i (ws.getD i 0)) []

/-! ### Conditions on a customer routine (R260) -/

/-- The fields of one microword that a routine may use. -/
def custWordOk (store : Bool) (m : Microword) : Bool :=
  let seq := mfld m 0 3
  let fin := seq = 8
  let src := fun (c : Nat) => decide (0o20 ≤ c ∧ c ≤ 0o23 ∨ 0o25 ≤ c ∧ c ≤ 0o27 ∨ 0o30 ≤ c)
  let dst := mfld m 33 37
  let mem := mfld m 38 41
  (decide (seq ≤ 4) || fin) && (seq ≠ 4 || mfld m 15 18 = 1)
    && src (mfld m 23 27) && src (mfld m 28 32) && (dst = 0o27 || decide (0o30 ≤ dst) || (fin && dst = 0o20))
    && (decide (mem ≤ 2) || (fin && mem = 3 && store)) && decide (mfld m 42 45 ≤ 7)
    && (fin || mfld m 68 71 = 0) && mfld m 46 49 = 0 && [0, 1, 4, 5, 6].contains (mfld m 15 18)
    && microOk false m

/-- The microwords and the most loads on every path from an address to its END; none where a condition fails. Every path
goes to higher addresses. -/
def custPath (bank : Tbl Microword) (store : Bool) : Nat → Nat → Option (Nat × Nat)
  | 0, _ => none
  | f + 1, a =>
    let m := tget 0 bank a
    let ld := if mfld m 38 41 = 1 || mfld m 38 41 = 2 then 1 else 0
    let na := mfld m 4 14 - 1792
    let step := fun (r : Option (Nat × Nat)) => r.map fun p => (p.1 + 1, p.2 + ld)
    if 256 ≤ a || !custWordOk store m then none
    else match mfld m 0 3 with
    | 8 => some (1, ld)
    | 1 => if 1792 ≤ mfld m 4 14 && a < na then step (custPath bank store f na) else none
    | 2 => joinPath na a ld (custPath bank store f na) (custPath bank store f (a + 1)) (mfld m 4 14)
    | 3 => joinPath na a ld (custPath bank store f na) (custPath bank store f (a + 1)) (mfld m 4 14)
    | _ => step (custPath bank store f (a + 1))
where
  /-- A branch: both ways have the same length. -/
  joinPath (na a ld : Nat) (x y : Option (Nat × Nat)) (t : Nat) : Option (Nat × Nat) :=
    match x, y with
    | some p, some q => if 1792 ≤ t ∧ a < na ∧ p.1 = q.1 then some (p.1 + 1, max p.2 q.2 + ld) else none
    | _, _ => none

/-- Whether a customer image meets R260. No condition of R260 bounds COUNT, NLOAD and DIST of a directory word by R259's ranges (DESIGN
CHOICE, log entry 96). -/
def custImageOk (bank : Tbl Microword) (dir : Tbl Word) : Bool :=
  (List.range 32).all fun n =>
    let w := tget 0 dir n
    !bit w 0 || (match custPath bank (bit w 26) 257 (fld w 1 8) with
      | some p => decide (p.1 = fld w 9 15 ∧ p.2 ≤ fld w 23 25)
      | none => false)

/-! ### Control stores (R245, R246, R265) -/

/-- The version of the image in a bank. -/
def custVer (s : State) (b : Bool) : Nat := if b then s.wel.verCust1 else s.wel.verCust0

/-- A FIRMWARE STAGE of an image of this kind is still under way. -/
def staging (s : State) (kind : Nat) : Bool := s.wel.ljobs.any fun j => j.code = 0o140 && fld (mkW j.a) 0 2 = kind

/-- A customer image is staged and its switch time has not come. -/
def custStaged (s : State) : Bool := (s.wel.staged.any fun x => x.kind = 3 && !s.wel.bankDone) && !staging s 3

/-- Engine e's control store is loaded with the images in effect and with what is staged (R266, R519, R527). -/
def loadCstore (e : Nat) (s : State) : State :=
  let w := s.wel
  let s := s.modE e fun g =>
    { g with cstore := { vendor := w.goldV, bank0 := w.gold0, bank1 := w.gold1, dir0 := w.goldD0, dir1 := w.goldD1 } }
  s.cs (rCSSTAT e) (place 0 11 w.verVendor ||| place 12 23 (custVer s w.custBank) ||| bitAt 24 w.custBank
    ||| bitAt 25 (custStaged s))

/-- A mantle replacement is under way: an engine restored meanwhile starts the staged mantle (R525, R527). -/
def mantleStaged (s : State) : Bool := s.wel.staged.any fun x => x.kind = 0 && x.active

/-- Engine e comes back to service with its control store loaded, at vector 0 (R519, R527). -/
def restoreEngine (e : Nat) (s : State) : State :=
  let s := (loadCstore e s).cs (rENGGEN e) (bitAt 0 (mantleStaged s))
  s.modE e fun g => g.resetScope.modRun fun r =>
    { r with inService := true, inReset := false, halted := false, haltReq := none, retCause := 0, quiet := 0 }

/-- ENGINE_AUTO_RESTORE (R519): after a retirement for a cause from 01 to 05, at most once in 24 hours; after
a failed test or a failure within that time the engine awaits UNIT RESTORE. -/
def execEngineAutoRestore (e : Nat) (pass : Bool) (s : State) : Host.Outcome State Fault Refusal :=
  onEngine e true
    (let r := (s.e e).run
     let early := match r.autoRestored with
       | some t => decide (s.net.devTime < t + 24 * 3600 * secU)
       | none => false
     if r.inService || r.retCause = 0 || s.wel.clusterDead.contains (e / 12) then s
     else if !pass || early then s.modE e fun g => g.modRun fun r => { r with retCause := 0 }
     else
       let s := (restoreEngine e s).modE e fun g => g.modRun fun r => { r with autoRestored := some s.net.devTime }
       restoreAdmission (jEvent 0o402 0 [mkW 0, mkW e] s))

/-! ### Staged images -/

def findStaged (s : State) (kind index : Nat) : Option Staged := s.wel.staged.find? fun x => x.kind = kind && x.index = index

def dropStaged (x : Staged) (s : State) : State := s.modWel fun w => { w with staged := w.staged.filter fun y => y ≠ x }

/-- The versions as the store holds them: active, then staged (R509). -/
def verRecord (s : State) : StoreRec :=
  { rtype := 0o17, key := [],
    data := [mkW s.wel.verMantle, mkW s.wel.verWelana, mkW s.wel.verVendor, mkW (custVer s s.wel.custBank)]
      ++ s.wel.staged.flatMap fun x => [place 0 2 x.kind ||| place 3 14 x.tenant ||| place 15 22 x.index ||| place 23 34 (imgVersion x.image)
          ||| bitAt 35 x.active] }

/-- A staged image's effect on the flash: kinds 0 to 2 go with the boot set into the other slot (R571), kinds 3 and 4 into the
owner image area (R572). -/
def keepImage (x : Staged) (s : State) : State :=
  if x.kind < 3 then
    let sl := s.cf bootBlk 3 3
    let old := slotAt s (if s.boot.setMoved then 1 - sl else sl)
    let cur := slotSet old
    let new : BootSet :=
      { mantle := if x.kind = 0 then x.image else cur.mantle, welana := if x.kind = 1 then x.image else cur.welana,
        vendor := if x.kind = 2 then x.image else cur.vendor }
    flashWrite .management (.slot (1 - sl)) (fun s => s.modBoot fun b =>
      { b with slots := tset [] b.slots (1 - sl) (slotOctets (slotSeq old + 1) new), setMoved := true }) s
  else
    writeOwner (((ownerSet s).filter fun o => !(o.kind = x.kind && o.tenant = x.tenant && o.index = x.index))
      ++ [{ kind := x.kind, index := x.index, tenant := x.tenant, image := x.image }]) s

/-- Journal event 415 and the store's versions, with other records that change, when an image has taken effect, with its revocations
and raise. -/
def switched (x : Staged) (rs : List StoreRec) (s : State) : State :=
  let s := imageEffect x.image s
  let s := jEvent 0o415 x.tenant [mkW x.kind, mkW (imgVersion x.image), timeHi x.swTime, timeLo x.swTime] s
  storeDelta (verRecord s :: rs) s

/-- The staging window of an image that is superseded or abandoned is released (R564). -/
def releaseWin (i : Nat) (s : State) : State := if s.cb (rLKW i) 1 then s.csf (rLKW i) 0 0 0 else s

/-- The image of a kind in window i is in effect: the window of the one before, which it supersedes, is released (R564). -/
def supersede (kind i : Nat) (s : State) : State :=
  let s := match tget none s.wel.curWin kind with
    | some j => if j = i then s else releaseWin j s
    | none => s
  s.modWel fun w => { w with curWin := tset none w.curWin kind (some i) }

/-- The lock window that covers a word. -/
def winOf (s : State) (a : Nat) : Option Nat :=
  (List.range 16).find? fun i => s.cb (rLKW i) 0 &&
    decide (s.cf (rLKW i + 1) 1 35 ≤ a ∧ a < s.cf (rLKW i + 1) 1 35 + (s.cg (rLKW i + 2)).toNat)

/-! ### Instruction boundaries at which Welana takes an engine (R267, R526, R533) -/

/-- Engine e is at an instruction boundary with TID.ACT at 0. -/
def atRest (s : State) (e : Nat) : Bool :=
  let g := s.e e
  g.run.inService && !g.run.inReset && !g.run.halted && !g.act && g.run.stall.isNone && g.pipe.exc.isNone && g.run.cphase = .idle
    && g.pipe.slot.isNone && !g.pipe.skip && !g.run.stealing

/-- Engine e is at such a boundary, and no activation that yielded on it has stores that are still to settle there: its caches and
buffers can go without a re-run (R526, R533; log entry 51). -/
def mayLeave (s : State) (e : Nat) : Bool := atRest s e && !s.rel.yielded.any fun p => p.1 = e

/-! ### Customer microcode (R266) -/

/-- CUSTOMER_SWITCH_TIME (R266): the new bank is the active one on every engine. -/
def execCustomerSwitchTime (s : State) : Host.Outcome State Fault Refusal :=
  .next (match s.wel.bankSwitch, s.wel.staged.find? fun x => x.kind = 3 && x.active with
    | some t, some x =>
      if s.wel.bankDone then s
      else
        let s := bringTo t s
        let b := !s.wel.custBank
        let s := s.modWel fun w => { w with bankDone := true, custBank := b }
        let s := (List.range 144).foldl (fun s e =>
          (s.csf (rCSSTAT e) 24 24 b.toNat).csf (rCSSTAT e) 12 23 (custVer s b)) s
        switched x [] (keepImage x s)
    | _, _ => s)

/-- An activation of a context that `mine` admits, released or to be released before t, has not ended. -/
def liveBefore (s : State) (mine : Nat → Bool) (t : Nat) : Bool :=
  (s.eng.filterMap (fun p => p.2.run.entry) ++ ((s.rel.deques ++ s.rel.overflow).flatMap Prod.snd)
    ++ s.rel.yielded.map Prod.snd ++ s.rel.waiting ++ s.rel.staged).any fun x => mine x.ctx && decide (x.rel < t)

/-! ### Vendor microcode (R267) -/

/-- Engine e holds the new vendor image. -/
def hasVendor (s : State) (e : Nat) (x : Staged) : Bool :=
  s.cf (rCSSTAT e) 0 11 = imgVersion x.image && (s.e e).cstore.vendor = s.wel.newV

/-- VENDOR_UPDATE_ENGINE (R267): the engine is out of service for the update, within 12 µs, with UPD at 1; it comes back with
the new vendor words. The row makes the update whole. -/
def execVendorUpdateEngine (e : Nat) (s : State) : Host.Outcome State Fault Refusal :=
  onEngine e true
    (match s.wel.staged.find? fun x => x.kind = 2 && x.active with
     | some x =>
       if !atRest s e || hasVendor s e x then s
       else (s.modE e fun g => { g with cstore := { g.cstore with vendor := s.wel.newV } }).csf (rCSSTAT e) 0 11 (imgVersion x.image)
     | none => s)

/-! ### The mantle (R531 to R533) -/

/-- The segment entries of a mantle image: index, first word of its body, size (R558). -/
def mantleSegs (w : List Octet) : List (Nat × Nat × Nat) :=
  ((List.range 8).map fun k =>
    (u8 w (76 + 12 * k), beNat (cut w (80 + 12 * k) 4), beNat (cut w (84 + 12 * k) 4))).takeWhile fun p => p.2.2 ≠ 0

/-- MANTLE_ENGINE_SWITCH (R533): MGEN is set and the engine alone is reset, its caches empty after the reclaim of R341 (R626); it
starts the new mantle at vector 0. -/
def execMantleEngineSwitch (e : Nat) (s : State) : Host.Outcome State Fault Refusal :=
  onEngine e true
    (if !mantleStaged s || !mayLeave s e || s.cb (rENGGEN e) 0 then s
     else reclaim e ((s.csf (rENGGEN e) 0 0 1).modE e fun g => g.resetScope))

/-! ### Remap entries (R530 to R532) -/

/-- The remap entries in use for tenant t. -/
def remapsOf (s : State) (t : Nat) : List Nat := (List.range 16).filter fun i => s.cb (rCREMAP i) 0 && s.cf (rCREMAP i) 1 12 = t

def freeRemaps (s : State) : List Nat := (List.range 16).filter fun i => !s.cb (rCREMAP i) 0

/-- Every engine is asked to invalidate its instruction cache at its next context switch (R532). -/
def askInval (s : State) : State :=
  (List.range 144).foldl (fun s e => s.modE e fun g => g.modRun fun r => { r with l1iInval := true }) s

/-- Program-region words that held a replaced image are free once every engine has invalidated its L1 instruction cache. -/
def freeWords (a b : Nat) (s : State) : State :=
  s.modWel fun w => { w with freed := (if invalDue s then w.freed else []) ++ [(a, b)] }

/-- What the store is told of a completed remap entry. -/
def remapRecs (s : State) (i : Nat) : List StoreRec :=
  let c := s.cg (rCREMAP i)
  let t := fld c 1 12
  let d := cfgDesc s t (fld c 21 28)
  [{ rtype := 2, key := [t, fld c 13 20], data := [d.1, d.2] }, { rtype := 2, key := [t, fld c 21 28], data := [] }]

/-- A remap entry is completed: the descriptor at OLD takes the words of NEW, SEGINV, the entry is cleared, NEW is freed; the
window of the replaced image is released. -/
def endRemap (i : Nat) (s : State) : State :=
  let c := s.cg (rCREMAP i)
  let t := fld c 1 12
  let old := fld c 13 20
  let new := fld c 21 28
  let d := cfgDesc s t new
  let o := cfgDesc s t old
  let win := winOf s (fld o.1 1 35)
  let s := descWrite t old d.1 d.2 s
  let s := s.css (rCREMAP i) [0, 0, 0, 0]
  let s := descWrite t new 0 0 s
  match win with
  | some j => releaseWin j (freeWords (s.cf (rLKW j + 1) 1 35) (s.cf (rLKW j + 1) 1 35 + (s.cg (rLKW j + 2)).toNat) s)
  | none => freeWords (fld o.1 1 35) (fld o.1 1 35 + descSize o.2) s

/-- REPLACEMENT_COMPLETE (R266, R267, R532): of the kind, and for kind 4 the remap entry. -/
def replacementDone (kind entry : Nat) (s : State) : State :=
  match kind with
  | 0 =>
    match s.wel.staged.find? fun x => x.kind = 0 && x.active with
    | none => s
    | some x =>
      if (List.range 144).any fun e => (s.e e).run.inService && !s.cb (rENGGEN e) 0 then s
      else
        let rs := (remapsOf s 0).flatMap (remapRecs s)
        let s := (remapsOf s 0).foldl (fun s i => endRemap i s) (askInval s)
        let s := (List.range 144).foldl (fun s e => s.cs (rENGGEN e) 0) s
        let s := s.modWel fun w =>
          { w with verMantle := imgVersion x.image, clsMantle := imgClass x.image, mcacc := u8 x.image 72 }
        switched x rs (keepImage x (dropStaged x s))
  | 2 =>
    match s.wel.staged.find? fun x => x.kind = 2 && x.active with
    | none => s
    | some x =>
      let v := imgVersion x.image
      if (List.range 144).any fun e => (s.e e).run.inService && !hasVendor s e x then s
      else
        let s := s.modWel fun w => { w with goldV := w.newV, newV := [], verVendor := v, clsVendor := imgClass x.image }
        switched x [] (keepImage x (supersede 2 x.win (dropStaged x s)))
  | 3 =>
    match s.wel.bankSwitch, s.wel.staged.find? fun x => x.kind = 3 && x.active with
    | some t, some x =>
      if !s.wel.bankDone || liveBefore s (fun _ => true) t then s
      else
        let s := (List.range 144).foldl (fun s e => s.csf (rCSSTAT e) 25 25 0) s
        supersede 3 x.win (dropStaged x (s.modWel fun w => { w with bankSwitch := none, bankDone := false }))
    | _, _ => s
  | 4 =>
    let c := s.cg (rCREMAP entry)
    let t := fld c 1 12
    match s.wel.staged.find? fun x => x.kind = 4 && x.active && x.tenant = t && x.index = fld c 13 20 with
    | some x =>
      if !bit c 0 || t = 0 || decide (s.net.devTime < x.swTime) || liveBefore s (fun k => ctxTenant s k = t) x.swTime then s
      else switched x (remapRecs s entry) (keepImage x (dropStaged x (endRemap entry (askInval s))))
    | none => s
  | _ => s

def execReplacementComplete (kind entry : Nat) (s : State) : Host.Outcome State Fault Refusal :=
  if kind < 8 ∧ entry < 16 then .next (replacementDone kind entry s) else .fault .noSuchUnit

/-! ### Welana (R530) -/

/-- Management engine u is reset and loads an image into its code area, under the lock of that area (R562). -/
def setCode (u : Nat) (w : List Octet) (s : State) : State :=
  s.modBoot fun b => if u = 0 then { b with code0 := w, codeLock0 := true } else { b with code1 := w, codeLock1 := true }

/-- The image in a management engine's code area. -/
def codeOf (s : State) (u : Nat) : List Octet := if u = 0 then s.boot.code0 else s.boot.code1

/-- WELANA_SWITCH_TIME (R530): a planned takeover; the former active engine restarts with the new image and becomes the
standby. -/
def execWelanaSwitchTime (s : State) : Host.Outcome State Fault Refusal :=
  .next (match s.wel.staged.find? fun x => x.kind = 1 && x.active with
    | some x =>
      if s.cf rMPSTAT 1 2 ≠ 2 then s
      else
        let s := takeOver (bringTo x.swTime s)
        let s := (s.csf rMPSTAT 1 2 2).modWel fun w => { w with verWelana := imgVersion x.image, clsWelana := imgClass x.image }
        let s := setCode (1 - s.cf rMPSTAT 0 0) x.image s
        switched x [] (keepImage x (supersede 1 x.win (dropStaged x s)))
    | none => s)

/-- A switch time: a boundary of 25 µs at least 1 ms ahead; which one is Welana's choice (log entry 38). -/
def switchTime (s : State) : Nat × State :=
  let r := freeNext s
  (((s.net.devTime + 1000 * usU + tickU - 1) / tickU + Config.freeLead r.1) * tickU, r.2)

end Sys2Proof.Machine
end

