-- ==== Sys2Proof/Machine/Manage.lean ====
section
/-! DEFINITION. How Welana runs a management command (R487 to R498, R583), and the commands that only read: HEALTH, JOURNAL READ,
NOTICE READ, RECORD READ. -/

namespace Sys2Proof.Machine

/-! ### Running a command (R490, R491) -/

/-- A message of a command code from a mailbox that exists (R482, R495). -/
def manOk (code : Nat) (src : MbSrc) (msg : List Word) : Bool :=
  srcOk src && decide (msgCmd msg = code ∧ 1 ≤ msg.length ∧ msg.length ≤ 312)

/-- A management command row: the message is one of its code; it runs when it is next in the queue, or at once when nothing
waits there. -/
def manage (code : Nat) (src : MbSrc) (msg : List Word) (run : State → State) (s : State) : Host.Outcome State Fault Refusal :=
  if !manOk code src msg then .fault .noSuchUnit
  else .next (
    let s := drainUnassigned s
    if !welIdle s then s
    else match nextCmd s with
      | some c => if c.src = src ∧ c.msg = msg then run (takeCmd c s) else s
      | none => run (running s))

/-! ### Plans -/

/-- What a command that has passed its checks does: its effect, the store records after it, its result words, the admission
that it needs with the contexts whose own tests count, the POOL numbers of a query, and the contexts that the change leaves dormant
but whose shape it must keep (R369, R371, R382, R491, R498). -/
structure Chg where
  apply : State → State
  recs : State → List StoreRec
  res : List Word
  adm : Option (List Nat)
  touched : State → List Nat
  shaped : List Nat := []

/-- The outcome of the checks 1 to 13: an error with its DETAIL, or a change. -/
inductive Plan where
  | err (code detail : Nat)
  | chg (c : Chg)

/-- The first failing check of a list, each with its error and DETAIL. -/
def firstErr (cs : List (Bool × Nat × Nat)) : Option (Bool × Nat × Nat) := cs.find? fun c => c.1

/-- The first failing check, else the rest of the plan. -/
def orErr (cs : List (Bool × Nat × Nat)) (p : Plan) : Plan :=
  match firstErr cs with
  | some c => .err c.2.1 c.2.2
  | none => p

/-- The classes of R492. -/
inductive CmdClass where
  | q | c | l
deriving DecidableEq, Repr

/-- Step 4 of R491 is sure to fail: the flash does not take the delta, or the store has no room for what it adds. -/
def deltaBad (c : Chg) (s : State) : Bool := s.wel.deltaFails || !takesDelta (c.recs (c.apply s)) s

/-- Steps 3 to 6 of R491. Where the delta fails to program, the entry of step 3 is withdrawn by event 417 and nothing changes. A class L
command posts its result when its background work ends. -/
def runChg (cls : CmdClass) (src : MbSrc) (msg : List Word) (hide : Nat → Bool) (c : Chg) (s : State) : State :=
  let s := jCommand src msg (msgTen src msg) hide s
  let n := s.wel.jnext
  if deltaBad c s then postErr src msg 0o17 0 (jEvent 0o417 (msgTen src msg) [hiW n, loW n] s)
  else
  let s := c.apply s
  let s := storeDeltaAt n (c.recs s) s
  match cls with
  | .l => qlenSync (s.modWel fun w =>
      { w with ljobs := w.ljobs ++ [{ src := src, code := msgCmd msg, a := (opW msg 1).toNat, b := msgTen src msg, jseq := n }] })
  | _ => postOk src msg c.res s

/-- The admission that a change needs: the shape of the contexts that stay dormant, then the run of R385 (R373, R498). -/
def admitChg (c : Chg) (s : State) : Option Nat :=
  let a := c.apply s
  if c.shaped.any fun k => !shapeOk a k then some 0o203 else c.adm.bind fun own => admission a [] own

/-- A command that changes state: admission (check 14), the running class L command (check 15), then the change. A command that leaves
everything as it is only posts its result (R491, R504). -/
def runPlan (cls : CmdClass) (src : MbSrc) (msg : List Word) (hide : Nat → Bool) (p : Plan) (s : State) : State :=
  match p with
  | .err e d => postErr src msg e d s
  | .chg c =>
    match admitChg c s with
    | some pool => postErr src msg 9 pool s
    | none =>
      if cls = .l && s.wel.ljobs.any fun j => j.code = msgCmd msg then postErr src msg 0o15 0 s
      else if cls ≠ .l && c.apply s = s then postOk src msg c.res s
      else runChg cls src msg hide c s

/-- A command that changes state, from its plan; `q` is false, as in the plan of a query the role of the inner command is not
checked (R498). -/
def command (code : Nat) (cls : CmdClass) (plan : Bool → MbSrc → List Word → State → Plan) (src : MbSrc) (msg : List Word)
    (hide : Nat → Bool) (s : State) : Host.Outcome State Fault Refusal :=
  manage code src msg (fun s => runPlan cls src msg hide (plan false src msg s) s) s

def noHide (_ : Nat) : Bool := false

/-! ### Checks 2 to 4 and 7 (R493 to R496) -/

/-- The word has a bit outside a mask. -/
def beyond (w m : Word) : Bool := (w &&& ~~~m) ≠ 0

/-- Check 2: NW and the reserved fields, by the masks of the operand words. -/
def form (src : MbSrc) (msg : List Word) (masks : List Word) : List (Bool × Nat × Nat) :=
  let nwBad := decide (msgNW msg ≠ masks.length) || decide (msg.length ≠ masks.length + 1)
    || (match src with
      | .tenant _ => decide (31 < msgNW msg)
      | _ => false)
  (nwBad, 2, 0) :: (fld (msg.headD 0) 30 35 ≠ 0, 2, 0)
    :: (List.zipWith Prod.mk (List.range masks.length) masks).map fun p => (beyond (opW msg (p.1 + 1)) p.2, 2, p.1 + 1)

/-- A grant is in effect for tenant t. -/
def granted (s : State) (t : Nat) : Bool :=
  s.wel.grants.any fun p => match p.2 with
    | some k => k.tenant = t
    | none => false

/-- Check 3: the least role, and whether K may. -/
def roleOk (s : State) (src : MbSrc) (msg : List Word) (least : Nat) (k : Bool) : Bool :=
  match src with
  | .tenant _ => k
  | .network _ => decide (srcRole s src ≠ 0 ∧ least ≤ srcRole s src)
  | .debug =>
    match lifeState s with
    | 1 => decide (least ≤ 1) || msgCmd msg = 0o166
    | 2 => decide (least ≤ 1) || (k && granted s (msgTen src msg))
    | _ => decide (least ≤ 3)

/-- The command acts as a tenant kernel (R494, R495). -/
def asKernel (s : State) (src : MbSrc) (least : Nat) : Bool :=
  match src with
  | .tenant _ => true
  | .network _ => false
  | .debug => lifeState s = 2 && decide (1 < least)

/-- The role is configure. -/
def isConf (s : State) (src : MbSrc) : Bool :=
  match src with
  | .tenant _ => false
  | _ => srcRole s src = 3

/-- Check 4 refuses a command in BLANK or OPEN (R583). -/
def lifeBad (s : State) (blank open_ : Bool) : Bool := (blank && lifeState s = 0) || (open_ && lifeState s = 3)

/-- A kernel's command names tenant 0 (R495). -/
def kernelZero (s : State) (src : MbSrc) (least : Nat) (msg : List Word) : Bool := asKernel s src least && msgTen src msg = 0

/-- Check 7: the tenant of TSCOPE is shed or retiring; `shedToo` commands run for a shed tenant (R496). -/
def tenBusy (s : State) (t : Nat) (shedToo : Bool) : Bool := tenState s t = 3 || (tenState s t = 2 && !shedToo)

/-- Checks 2 and 3 together, with the kernel's limit of check 5. -/
def opening (s : State) (src : MbSrc) (msg : List Word) (masks : List Word) (least : Nat) (k : Bool) : List (Bool × Nat × Nat) :=
  form src msg masks ++ [(!roleOk s src msg least k, 3, 0), (kernelZero s src least msg, 4, 0)]

/-! ### HEALTH (R498) -/

def bitsOf (n : Nat) (p : Nat → Bool) : Word := mkW (((List.range n).filter p).map fun i => 2 ^ (35 - i)).sum

/-- Clusters in service (R517). -/
def cluIn (s : State) (c : Nat) : Bool := !s.wel.clusterDead.contains c

/-- CAP less NEED, the smallest over all pools. -/
def slack (s : State) : Int :=
  let ds := (pools s).map fun p => (capacity s p : Int) - need s [] p
  match ds with
  | [] => 0
  | d :: r => r.foldl min d

def countTen (s : State) (st : Nat) : Nat := ((tenList s).filter fun t => tenState s t = st).length

def healthWords (s : State) : List Word :=
  let b := storeBank s
  let bits7 := ((List.range 12).filter (cluIn s)).foldl (fun w c => w ||| bitAt c true) (0 : Word)
    ||| ((List.range 4).filter fun n => !s.mem.retired.contains n).foldl (fun w n => w ||| bitAt (12 + n) true) (0 : Word)
    ||| ((List.range 4).filter (portLink s)).foldl (fun w p => w ||| bitAt (16 + p) true) (0 : Word)
  [s.cg rDEVID, s.cg rMPSTAT]
    ++ (List.range 4).map (fun w => bitsOf 36 fun i => (s.e (36 * w + i)).run.inService)
    ++ [bits7 ||| place 20 22 (s.cf rDTSTAT 0 2) ||| place 23 24 (pairRoleOf s) ||| place 25 26 (devPower s)
          ||| place 27 28 (s.cf rPWRSTAT 2 3) ||| place 29 30 (lifeState s),
        s.cg rTJ,
        place 0 11 (countTen s 1) ||| place 12 23 (countTen s 2) ||| place 24 30 ((tenList s).filter (tenSealed s)).length,
        mkZ (slack s), hiW s.wel.jnext, loW s.wel.jnext, mkW b.seq, mkW b.deltas.length,
        place 0 11 s.wel.verMantle ||| place 12 23 s.wel.verWelana ||| place 24 35 s.wel.verVendor,
        place 0 11 (custVer s s.wel.custBank)]

/-- The end of a command that changes nothing. -/
def answerQ (src : MbSrc) (msg : List Word) (cs : List (Bool × Nat × Nat)) (res : List Word) (s : State) : State :=
  match firstErr cs with
  | some c => postErr src msg c.2.1 c.2.2 s
  | none => postOk src msg res s

/-- The registers that Welana reads for HEALTH (R360); R498 returns none of them, and reading clears their read-clears fields. -/
def healthRegs : List Nat :=
  ((List.range 12).flatMap fun c => [rHSTAT c, rHLOST c]) ++ (List.range 4).flatMap fun n => [rMCSC n 0, rMCSC n 1]

def healthReads (s : State) : State := healthRegs.foldl (fun s o => (cwRead true o false s).2) s

/-- HEALTH (R498, R360). -/
def execHealth (src : MbSrc) (msg : List Word) (s : State) : Host.Outcome State Fault Refusal :=
  manage 1 src msg (fun s =>
    let cs := opening s src msg [] 1 false
    answerQ src msg cs (healthWords s) (if (firstErr cs).isNone then healthReads s else s)) s

/-! ### JOURNAL READ (R497, R507) -/

/-- The 160 octets of an entry. -/
def entryOctets (e : JEntry) : List Octet := jOctets e ++ e.chain

/-- The entries that a sender sees. -/
def jVisible (s : State) (src : MbSrc) (msg : List Word) : List JEntry :=
  if asKernel s src 1 then s.wel.journal.filter fun e => e.tscope = msgTen src msg else s.wel.journal

def journalReadGo (src : MbSrc) (msg : List Word) (s : State) : State :=
  let k := asKernel s src 1
  let n := (opW msg 3).toNat
  let first := dbl (opW msg 1) (opW msg 2)
  let vis := jVisible s src msg
  let old := (s.wel.journal.head?.map JEntry.seqno).getD 0
  let got := (vis.filter fun e => decide (first ≤ e.seqno)).take n
  let missing := !(vis.any fun e => decide (first ≤ e.seqno)) || (!k && decide (first < old))
  match firstErr (opening s src msg [full, full, full] 1 true
      ++ [(missing, 5, 0), (decide (n < 1 ∨ 7 < n) || (k && decide (n ≠ 1)), 7, 3)]) with
  | some c => if c.2.1 = 5 then postResult src [resHead (msgCmd msg) 2 5 0, hiW old, loW old] s else postErr src msg c.2.1 c.2.2 s
  | none =>
    let a := (got.head?.map JEntry.seqno).getD 0
    postOk src msg ([hiW a, loW a, mkW got.length] ++ got.flatMap fun e => lanesOf (entryOctets e)) s

/-- JOURNAL_READ (R507). -/
def execJournalRead (src : MbSrc) (msg : List Word) (s : State) : Host.Outcome State Fault Refusal :=
  manage 2 src msg (journalReadGo src msg) s

/-! ### NOTICE READ (R487) -/

def noticeWords (n : Notice) : List Word := [place 0 8 n.code ||| place 9 35 n.detail, timeHi n.time, timeLo n.time]

def noticeReadGo (src : MbSrc) (msg : List Word) (s : State) : State :=
  let t := msgTen src msg
  let n := (opW msg 1).toNat
  let least := 4
  match firstErr (form src msg [full] ++ [(!roleOk s src msg least true, 3, 0), (kernelZero s src least msg, 4, 0),
      (decide (n < 1 ∨ 20 < n), 7, 1)]) with
  | some c => postErr src msg c.2.1 c.2.2 s
  | none =>
    let got := (noticesOf s t).take n
    let s := noticeSync t (s.modWel fun w => { w with notices := tset [] w.notices t ((noticesOf s t).drop n) })
    postOk src msg (mkW got.length :: got.flatMap noticeWords) s

/-- NOTICE_READ (R487): a tenant kernel's command. -/
def execNoticeRead (src : MbSrc) (msg : List Word) (s : State) : Host.Outcome State Fault Refusal :=
  manage 4 src msg (noticeReadGo src msg) s

/-! ### RECORD READ (R497) -/

/-- A record: whether the number is in range, whether the object exists, its tenant, its words. -/
structure Rec where
  inRange : Bool
  here : Bool
  owner : Nat
  ws : List Word

def recOf (s : State) (kind n t : Nat) : Rec :=
  match kind with
  | 0 => { inRange := decide (n < 4096), here := tenState s n ≠ 0, owner := n, ws := s.cgs (rTen n 0) 8 }
  | 1 => { inRange := decide (n < 16384), here := ctxState s n ≠ 0, owner := ctxTenant s n, ws := s.cgs (rCtx n 0) 32 }
  | 2 => { inRange := decide (n < 16384), here := s.cb (rSes n 0) 0, owner := s.cf (rSes n 0) 3 14,
           ws := s.cgs (rSes n 0) 9 ++ [s.cg (rSes n 11)] }
  | 3 => { inRange := decide (n < 14336), here := s.cb (rBind n) 0, owner := ctxTenant s (s.cf (rBind n + 1) 0 13),
           ws := s.cgs (rBind n) 2 }
  | 4 => let d := cfgDesc s t n
         { inRange := decide (n < 256), here := !descAbsent d.2, owner := t, ws := [d.1, d.2] }
  | _ => { inRange := decide (n < 192), here := chBound s (n / 16) (n % 16), owner := s.cf (rMVBIND (n / 16) (n % 16)) 0 11,
           ws := [s.cg (rMVBIND (n / 16) (n % 16))] }

def recordReadGo (src : MbSrc) (msg : List Word) (s : State) : State :=
  let t := msgTen src msg
  let kind := fld (opW msg 1) 0 2
  let r := recOf s kind (opW msg 2).toNat t
  answerQ src msg (opening s src msg [maskW 0 2, full] 1 true
    ++ [(decide (kind < 6) && r.inRange && r.here && r.owner ≠ t && !isConf s src, 4, 0),
        (decide (kind < 6) && r.inRange && !r.here, 5, 0), (decide (6 ≤ kind), 7, 1), (!r.inRange, 7, 2)]) r.ws s

/-- RECORD_READ (R497). -/
def execRecordRead (src : MbSrc) (msg : List Word) (s : State) : Host.Outcome State Fault Refusal :=
  manage 5 src msg (recordReadGo src msg) s

end Sys2Proof.Machine
end

