-- ==== Sys2Proof/Machine/ManTen.lean ====
section
/-! DEFINITION. Management commands on tenants and segments (R361 to R363, R382, R383, R388, R392, R485, R497, R499). -/

namespace Sys2Proof.Machine

/-! ### Records of the store -/

def tenRec (s : State) (t : Nat) : StoreRec :=
  let q := tget Quota.reset s.wel.quotas t
  { rtype := 1, key := [t], data := [s.cg (rTen t 0), s.cg (rTen t 1), mkW q.maxCtx, mkW q.maxSeg, mkW q.maxCh, mkW q.group] }

/-- A context's words 0 to 12 with STATE dormant or armed (R509). -/
def ctxRec (s : State) (k : Nat) : StoreRec :=
  let ws := ctxWords s k
  { rtype := 3, key := [k],
    data := if ctxState s k = 0 then [] else
      setFld (setFld (ws.headD 0) 12 14 (if 2 ≤ ctxState s k && !ctxDis s k then 2 else 1)) 22 22 0 :: ws.drop 1 }

def descRec (t i : Nat) (d : Word × Word) : StoreRec := { rtype := 2, key := [t, i], data := [d.1, d.2] }
def gone (ty : Nat) (key : List Nat) : StoreRec := { rtype := ty, key := key, data := [] }
def dedRec (s : State) (t : Nat) : StoreRec := { rtype := 0o16, key := [t], data := dedWords s t }

def quotaOf (s : State) (t : Nat) : Quota := tget Quota.reset s.wel.quotas t

/-- POOL numbers of the pools of a tenant's contexts. -/
def tenPools (s : State) (t : Nat) : List Nat := ((tenCtxs s t).flatMap (poolsOf s)).eraseDups.map Pool.num

/-! ### Quotas (R493 check 10) -/

/-- Words of the data segments of tenant t. -/
def segWords (s : State) (t : Nat) : Nat := (((cfgDescs s).filter fun d => d.t = t && d.typ = tyData).map Desc.size).sum

/-- The tenant's data segments with n words more, and its contexts and channels, keep its quotas; tenant 0 has none. -/
def segQuotaBad (s : State) (t n : Nat) : Bool :=
  t ≠ 0 && decide ((quotaOf s t).maxSeg * 65536 < segWords s t + n)

/-! ### TENANT CREATE and TENANT SET -/

/-- The fields that both commands write. -/
def writeTenant (t : Nat) (msg : List Word) (s : State) : State :=
  let w1 := opW msg 1
  let w2 := opW msg 2
  let s := (s.csf (rTen t 0) 9 12 (fld w1 0 3)).csf (rTen t 0) 13 16 (fld w1 4 7)
  let q : Quota := { maxCtx := fld w1 8 22, maxSeg := fld w2 0 17, maxCh := fld w2 18 25, group := fld w2 26 28 }
  s.modWel fun w => { w with quotas := tset .reset w.quotas t q }

/-- The ranges of both commands. -/
def tenRange (s : State) (msg : List Word) : List (Bool × Nat × Nat) :=
  [(decide (12 < fld (opW msg 1) 4 7), 7, 1), (!(groupsUsed s).contains (fld (opW msg 2) 26 28), 7, 2)]

/-- The mailbox descriptor of a tenant (R485). -/
def mbxDesc (t : Nat) : Word × Word := mkDesc false (ctlBase + rMbx t) tyMailbox 6 t 1 (0, 95)

def createTenant (t : Nat) (msg : List Word) (s : State) : State :=
  let s := s.modWel fun w => { w with tseq := w.tseq + 1, notices := tset [] w.notices t [] }
  let s := s.css (rTen t 0) [place 0 1 1, mkW s.wel.tseq, 0, 0, 0, 0, 0, 0]
  descWrite t 255 (mbxDesc t).1 (mbxDesc t).2 (noticeSync t (writeTenant t msg s))

def planTenantCreate (q : Bool) (src : MbSrc) (msg : List Word) (s : State) : Plan :=
  let t := msgTen src msg
  orErr (form src msg [maskW 0 22, maskW 0 28] ++ [(!q && !roleOk s src msg 3 false, 3, 0), (tenBusy s t false, 0o21, 0),
      (t = 0 || tenState s t ≠ 0, 6, 0)] ++ tenRange s msg)
    (.chg { apply := createTenant t msg, recs := fun s => [tenRec s t, descRec t 255 (mbxDesc t)], res := [],
            adm := some [], touched := fun _ => [0o200] })

/-- TENANT_CREATE (R485). -/
def execTenantCreate (src : MbSrc) (msg : List Word) (s : State) : Host.Outcome State Fault Refusal :=
  command 0o20 .c planTenantCreate src msg noHide s

def planTenantSet (q : Bool) (src : MbSrc) (msg : List Word) (s : State) : Plan :=
  let t := msgTen src msg
  let used := segWords s t
  let w1 := opW msg 1
  let w2 := opW msg 2
  orErr (form src msg [maskW 0 22, maskW 0 28] ++ [(!q && !roleOk s src msg 3 false, 3, 0), (tenState s t = 0, 5, 0),
      (tenBusy s t false, 0o21, 0), (t = 0, 6, 0)] ++ tenRange s msg
      ++ [(decide (fld w1 8 22 < (tenCtxs s t).length ∨ fld w2 0 17 * 65536 < used ∨ fld w2 18 25 < (tenChans s t).length), 8, 0)])
    (.chg { apply := writeTenant t msg, recs := fun s => [tenRec s t], res := [], adm := some [], touched := fun _ => [0o200] })

/-- TENANT_SET. -/
def execTenantSet (src : MbSrc) (msg : List Word) (s : State) : Host.Outcome State Fault Refusal :=
  command 0o22 .c planTenantSet src msg noHide s

/-! ### TENANT RETIRE -/

/-- The tenant's contexts are released no more, and its channels and grants go (R392, R497, R607). -/
def beginRetire (t : Nat) (s : State) : State :=
  let s := s.csf (rTen t 0) 0 1 3
  let s := (tenCtxs s t).foldl (fun s k =>
    if ctxState s k = 2 then welW (rCtx k 0) (setFld (s.cg (rCtx k 0)) 12 14 1) s
    else disSync k (s.csf (rCtx k 0) 22 22 1)) s
  (strip t s).modWel fun w => { w with shedOrder := w.shedOrder.filter (· ≠ t) }

/-- The grants in effect for tenant t. -/
def tenGrants (s : State) (t : Nat) : List Nat :=
  s.wel.grants.filterMap fun p => match p.2 with
    | some k => if k.tenant = t then some p.1 else none
    | none => none

def planTenantRetire (q : Bool) (src : MbSrc) (msg : List Word) (s : State) : Plan :=
  let t := msgTen src msg
  orErr (form src msg [] ++ [(!q && !roleOk s src msg 3 false, 3, 0), (tenState s t = 0, 5, 0), (tenBusy s t false, 0o21, 0),
      (t = 0, 6, 0)])
    (.chg { apply := beginRetire t,
            recs := fun s' => tenRec s' t :: ((tenCtxs s t).map (ctxRec s') ++ (tenChans s t).map (fun c => gone 7 [c.1, c.2])
              ++ (tenGrants s t).map fun g => gone 0o20 [g]),
            res := [], adm := none, touched := fun _ => tenPools s t ++ [0o200] })

/-- TENANT_RETIRE: its result is posted by TENANT_RETIRE_COMPLETE. -/
def execTenantRetire (src : MbSrc) (msg : List Word) (s : State) : Host.Outcome State Fault Refusal :=
  command 0o21 .l planTenantRetire src msg noHide s

/-- The sessions of tenant t that are valid. -/
def tenSessions (s : State) (t : Nat) : List Nat :=
  (s.ctl.filterMap fun p =>
    if rSes 0 0 ≤ p.1 ∧ p.1 < rSes 16384 0 ∧ (p.1 - rSes 0 0) % 12 = 0 ∧ bit p.2 0 ∧ fld p.2 3 14 = t then
      some ((p.1 - rSes 0 0) / 12) else none)

/-- A session goes with its keys. -/
def dropSession (ses : Nat) (s : State) : State :=
  let s := (s.csf (rSes ses 0) 0 0 0).cs (rSes ses 11) 0
  modKey ses 0 (fun _ => .reset) (modKey ses 1 (fun _ => .reset) s)

/-- The bindings of a context go. -/
def dropBindings (k : Nat) (s : State) : State :=
  ((bindings s).filter fun x => x.ctx = k).foldl (fun s x => s.css (rBind x.b) [0, 0]) s

/-- Everything of a retired tenant goes: contexts and their bindings, sessions, segments, dedication, remap entries, quotas;
the tenant is absent. -/
def endTenant (t : Nat) (s : State) : State :=
  let s := (tenCtxs s t).foldl (fun s k => (setCtxState k 0 (dropBindings k s)).csf (rCtx k 0) 22 22 0) s
  let s := (tenSessions s t).foldl (fun s n => dropSession n s) s
  let s := (remapsOf s t).foldl (fun s i => s.css (rCREMAP i) [0, 0, 0, 0]) s
  let s := (s.wel.staged.filter fun x => x.kind = 4 && x.tenant = t).foldl (fun s x => releaseWin x.win (dropStaged x s)) s
  let s := ((cfgDescs s).filter fun d => d.t = t).foldl (fun s d =>
    let w := winOf s d.base
    let s := descWrite t d.i 0 0 s
    if d.typ = tyCode then (match w with
      | some i => releaseWin i s
      | none => s) else s) (dropOwner (fun o => o.kind = 4 && o.tenant = t) s)
  let s := if tenSealed s t then freeDedication t s else s
  let s := s.css (rTen t 0) [0, 0, 0, 0, 0, 0, 0, 0]
  noticeSync t (s.modWel fun w => { w with quotas := tset .reset w.quotas t .reset, notices := tset [] w.notices t [] })

/-- The store's objects of a tenant, to be removed. -/
def tenGone (s : State) (t : Nat) : List StoreRec :=
  gone 1 [t] :: gone 0o16 [t] :: (((cfgDescs s).filter fun d => d.t = t).map (fun d => gone 2 [t, d.i])
    ++ (tenCtxs s t).map (fun k => gone 3 [k])
    ++ (tenSessions s t).flatMap (fun n => [gone 4 [n], gone 5 [n, 0], gone 5 [n, 1]])
    ++ ((bindings s).filter fun x => ctxTenant s x.ctx = t).map fun x => gone 6 [x.b])

/-- TENANT_RETIRE_COMPLETE (R497): after the last activation of the tenant; event 416, and the result. -/
def execTenantRetireComplete (t : Nat) (s : State) : Host.Outcome State Fault Refusal :=
  if 4096 ≤ t then .fault .noSuchUnit
  else .next (
    if tenState s t ≠ 3 || tenLive s t then s
    else
      let rs := tenGone s t
      let s := storeDelta rs (jEvent 0o416 t [mkW t] (endTenant t s))
      match s.wel.ljobs.find? fun j => j.code = 0o21 && j.b = t with
      | some j =>
        postOk j.src [place 0 8 0o21] [] (qlenSync (s.modWel fun w => { w with ljobs := w.ljobs.filter fun x => x ≠ j }))
      | none => s)

/-! ### TENANT SEAL and TENANT UNSEAL (R377, R381, R382) -/

/-- Sealed indices that no tenant holds. -/
def freeSidx (s : State) : List Nat := (List.range 64).filter fun i => !((tenList s).any fun t => tenSealed s t && tenSidx s t = i)

/-- The dedication that TENANT SEAL names. -/
def sealWords (s : State) (msg : List Word) : List Word :=
  let sl := spreadSlots s (opW msg 7).toNat
  (List.range 6).map (fun i => opW msg (i + 1)) ++ (List.range 8).map fun w =>
    mkW ((sl.filter fun x => x / 36 = w).map fun x => 2 ^ (35 - x % 36)).sum

/-- SEALED of the tenant's context records. -/
def ctxSealed (t : Nat) (b : Bool) (s : State) : State :=
  (tenCtxs s t).foldl (fun s k => s.csf (rCtx k 0) 21 21 b.toNat) s

def applySeal (t i : Nat) (ws : List Word) (s : State) : State :=
  let s := (s.csf (rTen t 0) 2 2 1).csf (rTen t 0) 3 8 i
  occSync t (ctxSealed t true (dedicateAll t ws s))

/-- The contexts whose own tests a change of the pools needs. -/
def armedCtxs (s : State) (t : Nat) : List Nat := (tenCtxs s t).filter fun k => decide (2 ≤ ctxState s k)

/-- The checks 1 to 13 of TENANT SEAL. -/
def sealChecks (q : Bool) (src : MbSrc) (msg : List Word) (s : State) : List (Bool × Nat × Nat) :=
  let t := msgTen src msg
  let ws := sealWords s msg
  let es := maskNums (ws.take 4)
  let n := (opW msg 7).toNat
  form src msg [full, full, full, full, full, maskW 0 27, full]
    ++ [(!q && !roleOk s src msg 3 false, 3, 0), (tenState s t = 0, 5, 0), (tenBusy s t false, 0o21, 0),
        (t = 0 || tenSealed s t, 6, 0), (decide ((es.map (· / 12)).eraseDups.length < 2), 7, 1), (decide (64 < n), 7, 7),
        ((freeSidx s).isEmpty
          || !((es.all fun e => !s.cb (rDEDIC e) 0) && (maskNums ((ws.drop 4).take 2)).all fun b => !((tenList s).any fun u => blockBit s u b))
          || decide (((List.range 256).filter fun k => (slotOwner s k).isNone).length < n), 0o12, 0)]

def planTenantSeal (q : Bool) (src : MbSrc) (msg : List Word) (s : State) : Plan :=
  let t := msgTen src msg
  let ws := sealWords s msg
  orErr (sealChecks q src msg s)
    (match choose (freeSidx s) with
     | none => .err 0o12 0
     | some i => .chg
        { apply := applySeal t i ws, recs := fun s => tenRec s t :: dedRec s t :: (tenCtxs s t).map (ctxRec s), res := [mkW i],
          adm := some (armedCtxs s t), shaped := tenCtxs s t,
          touched := fun s' => (pools s').map Pool.num ++ [0o200, 0o201, 0o202, 0o203] })

/-- Welana writes DEDIC of an engine only while its TID.ACT is 0 (R382): a command waits while an engine that it names runs an
activation. -/
def sealWaits (src : MbSrc) (msg : List Word) (s : State) : Bool :=
  match planTenantSeal false src msg s with
  | .err _ _ => false
  | .chg _ => (maskNums ((sealWords s msg).take 4)).any fun e => (s.e e).act

/-- TENANT_SEAL (R382). -/
def execTenantSeal (src : MbSrc) (msg : List Word) (s : State) : Host.Outcome State Fault Refusal :=
  if manOk 0o23 src msg && sealWaits src msg s then .next s else command 0o23 .c planTenantSeal src msg noHide s

def applyUnseal (t : Nat) (s : State) : State :=
  let s := freeDedication t s
  occSync t (ctxSealed t false ((s.csf (rTen t 0) 2 2 0).csf (rTen t 0) 3 8 0))

def planTenantUnseal (q : Bool) (src : MbSrc) (msg : List Word) (s : State) : Plan :=
  let t := msgTen src msg
  orErr (form src msg [] ++ [(!q && !roleOk s src msg 3 false, 3, 0), (tenState s t = 0, 5, 0), (tenBusy s t false, 0o21, 0),
      (!tenSealed s t, 6, 0)])
    (.chg { apply := applyUnseal t, recs := fun s => tenRec s t :: gone 0o16 [t] :: (tenCtxs s t).map (ctxRec s), res := [],
            adm := some (armedCtxs s t), touched := fun s' => (pools s').map Pool.num ++ [0o200, 0o201, 0o202, 0o203],
            shaped := tenCtxs s t })

def unsealWaits (src : MbSrc) (msg : List Word) (s : State) : Bool :=
  match planTenantUnseal false src msg s with
  | .err _ _ => false
  | .chg _ => (poolEngs s (.sealed_ (tenSidx s (msgTen src msg)))).any fun e => (s.e e).act

/-- TENANT_UNSEAL. -/
def execTenantUnseal (src : MbSrc) (msg : List Word) (s : State) : Host.Outcome State Fault Refusal :=
  if manOk 0o24 src msg && unsealWaits src msg s then .next s else command 0o24 .c planTenantUnseal src msg noHide s

/-! ### Segments (R495, R499) -/

/-- A kernel's segment is of data or near type, with MINLVL S or U (R495). -/
def kernelSeg (ty lvl : Nat) : Bool := (ty = tyData || ty = tyNear) && decide (lvl < 2)

/-- The words of near store that carry the tenant's tag are zeroed on every engine. -/
def zeroNear (t o n : Nat) (s : State) : State :=
  { s with eng := s.eng.map fun p => (p.1, p.2.modMem fun m =>
      { m with near := m.near.filter fun w => !(decide (o ≤ w.1 ∧ w.1 < o + n) && tget 0 m.ntag (w.1 / 8) = t) }) }

/-- An ALLOCATE's segment: descriptor and installed size, or an error. A device-type base that the tenant may not have is out of range
(DEDUCED: log entry 78). -/
def segPlace (s : State) (t : Nat) (msg : List Word) : Sum (Nat × Nat) (Word × Word × Nat × Nat) :=
  let w1 := opW msg 1
  let ty := fld w1 8 10
  let mir := bit w1 16 && ty = tyData
  let b3 := fld (opW msg 3) 1 35
  match sizeCode (opW msg 2).toNat with
  | none => .inl (7, 2)
  | some c =>
    let n := codedSize c
    let mk := fun (b : Nat) => let d := mkDesc mir b ty (fld w1 11 13) t (fld w1 14 15) c; (d.1, d.2, n, b)
    if ty = tyNear then (if b3 % 2 = 0 ∧ b3 + n ≤ 32768 then .inr (mk b3) else .inl (7, 3))
    else if ty = tyDevice then
      (if b3 % 2 = 0 ∧ ctlBase ≤ b3 ∧ b3 + n ≤ ctlBase + 0o100000000 ∧ devOk s t b3 n then .inr (mk b3) else .inl (7, 3))
    else if segQuotaBad s t n then .inl (8, 0)
    else match placeData t mir n s with
      | some b => .inr (mk b)
      | none => .inl (0o12, 0)

def planSegmentAllocate (q : Bool) (src : MbSrc) (msg : List Word) (s : State) : Plan :=
  let t := msgTen src msg
  let w1 := opW msg 1
  let i := fld w1 0 7
  let ty := fld w1 8 10
  let lvl := fld w1 14 15
  let k := asKernel s src 3
  orErr (form src msg [maskW 0 16, full, maskW 1 35]
      ++ [(!q && !roleOk s src msg 3 true, 3, 0), (kernelZero s src 3 msg || (k && !kernelSeg ty lvl), 4, 0),
          (t ≠ 0 && tenState s t = 0, 5, 0), (tenBusy s t false, 0o21, 0), (i ≠ 255 && !descAbsent (cfgDesc s t i).2, 6, 0),
          (i = 255 || !(ty = tyData || ty = tyNear || ty = tyDevice) || lvl = 3 || (bit w1 16 && (ty ≠ tyData || mirSize s = 0)), 7, 1)])
    (match segPlace s t msg with
     | .inl e => .err e.1 e.2
     | .inr (d0, d1, n, b) => .chg
        { apply := fun s => descWrite t i d0 d1
            (if ty = tyData then cohZero b n s else if ty = tyNear then zeroNear t b n s else s),
          recs := fun _ => [descRec t i (d0, d1)], res := [mkW n, if k then 0 else mkW b], adm := some [],
          touched := fun _ => [0o200] })

/-- SEGMENT_ALLOCATE (R499). -/
def execSegmentAllocate (src : MbSrc) (msg : List Word) (s : State) : Host.Outcome State Fault Refusal :=
  command 0o40 .c planSegmentAllocate src msg noHide s

/-- A context record names the descriptor index i. -/
def ctxNames (ws : List Word) (i : Nat) : Bool :=
  recF ws 7 0 7 = i || [8, 9].any (fun w => [0, 8, 16, 24].any fun b => recF ws w b (b + 7) = i)
    || (recF ws 10 8 23 ≠ 0 && recF ws 10 0 7 = i) || (recF ws 11 8 23 ≠ 0 && recF ws 11 0 7 = i)

/-- An armed set of a channel bound to tenant t names the index i. -/
def setNames (s : State) (t i : Nat) : Bool :=
  (tenChans s t).any fun c => [false, true].any fun sh =>
    armed s c.1 c.2 sh && (s.cf (chSet c.1 c.2 sh) 0 7 = i || s.cf (chSet c.1 c.2 sh) 8 15 = i)

/-- The segment is in use (R499). -/
def segInUse (s : State) (t i : Nat) : Bool := (tenCtxs s t).any (fun k => ctxNames (ctxWords s k) i) || setNames s t i

/-- The checks that FREE and RESIZE share. -/
def segChecks (q : Bool) (src : MbSrc) (msg : List Word) (masks : List Word) (s : State) : List (Bool × Nat × Nat) :=
  let t := msgTen src msg
  let i := fld (opW msg 1) 0 7
  let d := (cfgDesc s t i).2
  form src msg masks
    ++ [(!q && !roleOk s src msg 3 true, 3, 0),
        (kernelZero s src 3 msg || (asKernel s src 3 && !descAbsent d && i ≠ 255 && !kernelSeg (fld d 0 2) (fld d 18 19)), 4, 0),
        (descAbsent d, 5, 0), (tenBusy s t false, 0o21, 0), (i ≠ 255 && segInUse s t i, 6, 0), (i = 255, 7, 1)]

/-- The descriptor is absent; the image of a code segment is abandoned: its window is released (R564), and it leaves the owner area
(R572). -/
def freeSegment (t i : Nat) (s : State) : State :=
  let d := cfgDesc s t i
  let w := winOf s (fld d.1 1 35)
  let s := descWrite t i 0 0 s
  if fld d.2 0 2 ≠ tyCode then s
  else dropOwner (fun o => o.kind = 4 && o.tenant = t && o.index = i) (match w with
    | some j => releaseWin j s
    | none => s)

def planSegmentFree (q : Bool) (src : MbSrc) (msg : List Word) (s : State) : Plan :=
  let t := msgTen src msg
  let i := fld (opW msg 1) 0 7
  orErr (segChecks q src msg [maskW 0 7] s)
    (.chg { apply := freeSegment t i, recs := fun _ => [gone 2 [t, i]], res := [], adm := none, touched := fun _ => [] })

/-- SEGMENT_FREE (R499). -/
def execSegmentFree (src : MbSrc) (msg : List Word) (s : State) : Host.Outcome State Fault Refusal :=
  command 0o41 .c planSegmentFree src msg noHide s

/-- RESIZE keeps the base: the words that a larger size adds must be free, and are zeroed. -/
def planSegmentResize (q : Bool) (src : MbSrc) (msg : List Word) (s : State) : Plan :=
  let t := msgTen src msg
  let i := fld (opW msg 1) 0 7
  let d := cfgDesc s t i
  let ty := fld d.2 0 2
  let b := fld d.1 1 35
  let old := descSize d.2
  orErr (segChecks q src msg [maskW 0 7, full] s ++ [((sizeCode (opW msg 2).toNat).isNone, 7, 2)])
    (match sizeCode (opW msg 2).toNat with
     | none => .err 7 2
     | some c =>
       let n := codedSize c
       let us := usedIvs s
       let lo := (b + old + 7) / 8 * 8
       let d1 := place 0 21 (fld d.2 0 19 * 4 + c.1) ||| place 22 35 c.2
       let free_ := decide (b + n ≤ lo) || (clear_ (prgRegion s :: us) lo (b + n - lo) && decide (b + n ≤ dramWords s)
         && placedOk s t b n && (!bit d.1 0 || decide (b + n ≤ (mirRegion s).2)))
       orErr [(ty = tyNear && decide (32768 < b + n), 7, 2), (ty = tyDevice && (decide (ctlBase + 0o100000000 < b + n) || !devOk s t b n), 7, 2),
           (ty = tyCode && decide (codeMax < n), 7, 2),
           (ty = tyData && decide (old < n) && segQuotaBad s t (n - old), 8, 0),
           ((ty = tyData || ty = tyCode) && (!free_ || !installOk s d.1 d1), 0o12, 0)]
         (.chg { apply := fun s => descWrite t i d.1 d1
                   (if old < n then (if ty = tyData then cohZero (b + old) (n - old) s else if ty = tyNear then zeroNear t (b + old) (n - old) s else s)
                    else s),
                 recs := fun _ => [descRec t i (d.1, d1)], res := [mkW n], adm := some [], touched := fun _ => [0o200] }))

/-- SEGMENT_RESIZE (R499). -/
def execSegmentResize (src : MbSrc) (msg : List Word) (s : State) : Host.Outcome State Fault Refusal :=
  command 0o42 .c planSegmentResize src msg noHide s

end Sys2Proof.Machine
end

