-- ==== Sys2Proof/Machine/ManCtx.lean ====
section
/-! DEFINITION. Management commands on contexts and bindings, and ADMISSION QUERY (R270, R369, R373, R455, R456, R498, R500). -/

namespace Sys2Proof.Machine

/-! ### Fields of a record (R270, R274) -/

/-- The assigned bits of words 0 to 12. -/
def ctxMasks : List Word :=
  [maskW 0 22, maskW 0 31, full, full, full, full, full, full, maskW 0 31, maskW 0 31, maskW 0 23, maskW 0 23, maskW 0 11]

/-- Range checks of words 0 to 12, each with the word at fault. -/
def ctxRange (ws : List Word) : List (Bool × Nat) :=
  [(decide (2 ≤ recF ws 0 17 18), 0), (decide (143 < recHome ws) || !admits ws (recHome ws), 1),
   (decide (recPer ws < 5 ∨ 24000000 < recPer ws), 2), (decide (recPer ws ≤ recPh ws), 3), (decide (250 * recPer ws < recDl ws), 4),
   (decide (recBudget ws < 1), 5), (decide (recWsMax ws < 1), 12)]

/-- A context that the command names: it belongs to TSCOPE or the role is configure, and exists. -/
def ctxNamed (s : State) (src : MbSrc) (msg : List Word) (k : Nat) : List (Bool × Nat × Nat) :=
  let here := decide (k < 16384) && ctxState s k ≠ 0
  [(here && ctxTenant s k ≠ msgTen src msg && !isConf s src, 4, 0), (!here, 5, 0)]

/-- The tenant whose state check 7 asks. -/
def ctxBusy (s : State) (src : MbSrc) (msg : List Word) (k : Nat) (shedToo : Bool) : Bool :=
  tenBusy s (msgTen src msg) shedToo || tenBusy s (ctxTenant s k) shedToo

def ctxPools (s : State) (k : Nat) : List Nat := (poolsOf s k).map Pool.num ++ [0o202, 0o203]

/-! ### CONTEXT CREATE -/

/-- The record that a command's words give a context of tenant t. -/
def newWords (s : State) (t : Nat) (ws : List Word) : List Word :=
  let w := ws.headD 0
  let w := setFld (setFld (setFld (setFld w 0 11 t) 12 14 1) 21 21 (tenSealed s t).toNat) 22 22 0
  w :: ws.drop 1

/-- The checks 1 to 13 of CONTEXT CREATE. -/
def createChecks (q : Bool) (src : MbSrc) (msg : List Word) (s : State) : List (Bool × Nat × Nat) :=
  let t := msgTen src msg
  form src msg ctxMasks
    ++ [(!q && !roleOk s src msg 3 true, 3, 0), (kernelZero s src 3 msg, 4, 0), (tenState s t = 0, 5, 0), (tenBusy s t false, 0o21, 0),
        (t = 0, 6, 0)]
    ++ (ctxRange (newWords s t (msg.drop 1))).map (fun c => (c.1, 7, c.2 + 1))
    ++ [(decide ((quotaOf s t).maxCtx ≤ (tenCtxs s t).length), 8, 0)]

/-- The contexts that no tenant holds. -/
def freeCtxs (s : State) : List Nat := (List.range 16384).filter fun k => ctxState s k = 0

def planContextCreate (q : Bool) (src : MbSrc) (msg : List Word) (s : State) : Plan :=
  let ws := newWords s (msgTen src msg) (msg.drop 1)
  orErr (createChecks q src msg s)
    (match choose (freeCtxs s) with
     | none => .err 0o12 0
     | some k => .chg
        { apply := fun s => s.css (rCtx k 0) (ws ++ List.replicate 19 0), recs := fun s => [ctxRec s k], res := [mkW k], adm := none,
          touched := fun s' => ctxPools s' k, shaped := [k] })

/-- CONTEXT_CREATE (R500). -/
def execContextCreate (src : MbSrc) (msg : List Word) (s : State) : Host.Outcome State Fault Refusal :=
  command 0o60 .c planContextCreate src msg noHide s

/-! ### CONTEXT SET -/

/-- The word numbers that the mask word names. -/
def setList (msg : List Word) : List Nat := (List.range 13).filter fun i => bit (opW msg 2) i

/-- The words after the change; TENANT, STATE, SEALED and DIS stay. -/
def setWords (s : State) (k : Nat) (msg : List Word) : List Word :=
  let ch := List.zipWith Prod.mk (setList msg) (msg.drop 3)
  let ws := ch.foldl (fun (ws : List Word) (p : Nat × Word) => ws.set p.1 p.2) (ctxWords s k)
  let old := (ctxWords s k).headD 0
  let w := setFld (setFld (ws.headD 0) 0 14 (fld old 0 14)) 21 22 (fld old 21 22)
  w :: ws.drop 1

def planContextSet (q : Bool) (src : MbSrc) (msg : List Word) (s : State) : Plan :=
  let k := (opW msg 1).toNat
  let l := setList msg
  let ws := setWords s k msg
  let t := ctxTenant s k
  let place_ := fun (i : Nat) => (l.findIdx? (· = i)).getD 0 + 3
  orErr (form src msg (full :: maskW 0 12 :: l.map fun i => ctxMasks.getD i full)
      ++ [(!q && !roleOk s src msg 3 true, 3, 0), (kernelZero s src 3 msg, 4, 0)] ++ ctxNamed s src msg k
      ++ [(ctxBusy s src msg k false, 0o21, 0),
          (decide (1 < ctxState s k) && (recPer ws ≠ recPer (ctxWords s k) || recPh ws ≠ recPh (ctxWords s k)), 6, 0)]
      ++ (ctxRange ws).map (fun c => (c.1, 7, place_ c.2)))
    (.chg { apply := fun s => occSync t (s.css (rCtx k 0) ws), recs := fun s => [ctxRec s k], res := [],
            adm := if 2 ≤ ctxState s k then some [k] else none, touched := fun s' => ctxPools s k ++ ctxPools s' k, shaped := [k] })

/-- CONTEXT_SET (R500). -/
def execContextSet (src : MbSrc) (msg : List Word) (s : State) : Host.Outcome State Fault Refusal :=
  command 0o61 .c planContextSet src msg noHide s

/-! ### CONTEXT ARM, CONTEXT DISARM, CONTEXT RETIRE -/

def planContextArm (q : Bool) (src : MbSrc) (msg : List Word) (s : State) : Plan :=
  let k := (opW msg 1).toNat
  let n0 := dbl (opW msg 2) (opW msg 3)
  let n := if n0 = 0 then earliestBoundary s k else n0
  let t := ctxTenant s k
  orErr (form src msg [full, full, full] ++ [(!q && !roleOk s src msg 2 true, 3, 0), (kernelZero s src 2 msg, 4, 0)]
      ++ ctxNamed s src msg k
      ++ [(ctxBusy s src msg k false, 0o21, 0), (decide (3 ≤ ctxState s k), 6, 0), (!recOk (ctxWords s k), 7, 1)])
    (.chg { apply := fun s => occSync t (armCtx k n s), recs := fun s => [ctxRec s k], res := [hiW n, loW n], adm := some [k],
            touched := fun s' => ctxPools s' k })

/-- CONTEXT_ARM (R500). -/
def execContextArm (src : MbSrc) (msg : List Word) (s : State) : Host.Outcome State Fault Refusal :=
  command 0o62 .c planContextArm src msg noHide s

/-- STATE 001 of an armed context (DIS where a boundary is staged, R271), DIS of a live one. -/
def disarm (k : Nat) (s : State) : State :=
  if ctxState s k = 2 then welW (rCtx k 0) (setFld (s.cg (rCtx k 0)) 12 14 1) s
  else if 3 ≤ ctxState s k then disSync k (s.csf (rCtx k 0) 22 22 1)
  else s

/-- The store's record of a context that is no longer to be released. -/
def dormantRec (s : State) (k : Nat) : StoreRec :=
  { rtype := 3, key := [k], data := match (ctxRec s k).data with
      | w :: r => setFld w 12 14 1 :: r
      | [] => [] }

def planContextDisarm (q : Bool) (src : MbSrc) (msg : List Word) (s : State) : Plan :=
  let k := (opW msg 1).toNat
  orErr (form src msg [full] ++ [(!q && !roleOk s src msg 2 true, 3, 0), (kernelZero s src 2 msg, 4, 0)] ++ ctxNamed s src msg k)
    (.chg { apply := disarm k, recs := fun s => [dormantRec s k], res := [], adm := none, touched := fun _ => [] })

/-- CONTEXT_DISARM (R500): where the context is disarmed already it changes nothing and is done; in a shed tenant's, it takes it out of
what a readmission arms. -/
def execContextDisarm (src : MbSrc) (msg : List Word) (s : State) : Host.Outcome State Fault Refusal :=
  manage 0o63 src msg (fun s =>
    let k := (opW msg 1).toNat
    match planContextDisarm false src msg s with
    | .err e d => postErr src msg e d s
    | .chg c =>
      if disarm k s = s && ((storeGet s 3 [k]).map fun ws => fld (ws.headD 0) 12 14) ≠ some 2 then postOk src msg [] s
      else runChg .q src msg noHide c s) s

def planContextRetire (q : Bool) (src : MbSrc) (msg : List Word) (s : State) : Plan :=
  let k := (opW msg 1).toNat
  orErr (form src msg [full] ++ [(!q && !roleOk s src msg 3 true, 3, 0), (kernelZero s src 3 msg, 4, 0)] ++ ctxNamed s src msg k
      ++ [(ctxBusy s src msg k true, 0o21, 0), (ctxState s k ≠ 1 || ctxLive s k || ctxStaged s k, 6, 0)])
    (.chg { apply := fun s => setCtxState k 0 (dropBindings k s),
            recs := fun _ => gone 3 [k] :: ((bindings s).filter fun x => x.ctx = k).map fun x => gone 6 [x.b],
            res := [], adm := none, touched := fun _ => [] })

/-- CONTEXT_RETIRE (R500). -/
def execContextRetire (src : MbSrc) (msg : List Word) (s : State) : Host.Outcome State Fault Refusal :=
  command 0o64 .c planContextRetire src msg noHide s

/-! ### BIND and UNBIND (R456) -/

/-- One block alone in a PUBLISH frame with every header that a port can add fits every port of the session: those that it sends
through and those that it accepts frames at. -/
def blockFits (s : State) (x : Binding) : Bool :=
  let ports := sesPorts s x.ses ++ (List.range 4).filter fun p => s.cb (rSes x.ses 0) (21 + p)
  let n := 10 + (blockOctets x (some (List.replicate x.len 0))).length
  sesKind s x.ses = 3 || ports.all fun p => decide (n ≤ min 1408 (publishLimit s p - frameAround s x.ses true))

/-- The conditions of R456 on the slot and the block; DETAIL is the operand word at fault. -/
def bindRange (s : State) (x : Binding) : List (Bool × Nat × Nat) :=
  let others := (bindings s).filter fun y => y.b ≠ x.b
  let rx := others.filter fun y => !y.tx && y.ctx = x.ctx
  let ol := recF (ctxWords s x.ctx) 11 8 23
  [(decide (x.len < 1), 7, 1), (!(sesKind s x.ses = 0 || sesKind s x.ses = 3), 7, 1), (!blockFits s x, 7, 1),
   (x.tx && others.any (fun y => y.tx && y.ses = x.ses && y.block = x.block), 7, 1),
   (!x.tx && decide (8 * frLen s x.ctx < x.off + x.len + 3), 7, 2),
   (!x.tx && rx.any (fun y => decide (x.off < y.off + y.len + 3 ∧ y.off < x.off + x.len + 3)), 7, 2),
   (x.tx && decide (32 < ol ∨ 8 * ol < x.off + x.len), 7, 2)]

def planBind (q : Bool) (src : MbSrc) (msg : List Word) (s : State) : Plan :=
  let free_ := (List.range 14336).filter fun b => !s.cb (rBind b) 0
  let b := (choose free_).getD 14336
  let w0 := setBit (opW msg 1) 0 true
  let w1 := opW msg 2
  let x := bindingOf b w0 w1
  let ct := ctxTenant s x.ctx
  let st := s.cf (rSes x.ses 0) 3 14
  let here := ctxState s x.ctx ≠ 0 && sesValid s x.ses
  orErr (form src msg [full, maskW 0 27]
      ++ [(!q && !roleOk s src msg 3 true, 3, 0), (kernelZero s src 3 msg, 4, 0),
          (here && (ct ≠ msgTen src msg || st ≠ ct) && !isConf s src, 4, 0), (!here, 5, 0), (ctxBusy s src msg x.ctx false, 0o21, 0),
          (decide (1 < ctxState s x.ctx), 6, 0)]
      ++ bindRange s x ++ [(free_.isEmpty, 0o12, 0)])
    (.chg { apply := fun s => s.css (rBind b) [w0, w1], recs := fun _ => [{ rtype := 6, key := [b], data := [w0, w1] }], res := [mkW b],
            adm := none, touched := fun _ => [] })

/-- BIND (R456). -/
def execBind (src : MbSrc) (msg : List Word) (s : State) : Host.Outcome State Fault Refusal :=
  command 0o65 .c planBind src msg noHide s

def planUnbind (q : Bool) (src : MbSrc) (msg : List Word) (s : State) : Plan :=
  let b := (opW msg 1).toNat
  let k := s.cf (rBind b + 1) 0 13
  let here := decide (b < 14336) && s.cb (rBind b) 0
  orErr (form src msg [full] ++ [(!q && !roleOk s src msg 3 true, 3, 0), (kernelZero s src 3 msg, 4, 0),
      (here && ctxTenant s k ≠ msgTen src msg && !isConf s src, 4, 0), (!here, 5, 0), (ctxBusy s src msg k false, 0o21, 0),
      (decide (1 < ctxState s k), 6, 0)])
    (.chg { apply := fun s => s.css (rBind b) [0, 0], recs := fun _ => [gone 6 [b]], res := [], adm := none, touched := fun _ => [] })

/-- UNBIND. -/
def execUnbind (src : MbSrc) (msg : List Word) (s : State) : Host.Outcome State Fault Refusal :=
  command 0o66 .c planUnbind src msg noHide s

end Sys2Proof.Machine
end

