-- ==== Sys2Proof/Machine/ManNet.lean ====
section
/-! DEFINITION. Management commands on sessions, keys, ports, streams, device time and channels (R391 to R393, R424, R437, R445
to R449, R467, R495, R497, R501, R503). -/

namespace Sys2Proof.Machine

/-! ### Sessions -/

/-- Assigned bits of words 0 to 10₈ (R445). -/
def sesMasks : List Word := [maskW 0 29, maskW 0 26, maskW 0 30, full, full, full, full, full, full]

def sesRec (s : State) (n : Nat) : StoreRec := { rtype := 4, key := [n], data := s.cgs (rSes n 0) 9 }

/-- The entry is written with VALID 1. -/
def installSession (n : Nat) (ws : List Word) (s : State) : State :=
  keySync n (s.css (rSes n 0) (setBit (ws.headD 0) 0 true :: ws.drop 1))

def planSessionInstall (q : Bool) (src : MbSrc) (msg : List Word) (s : State) : Plan :=
  let n := (opW msg 1).toNat
  let ws := msg.drop 2
  let w0 := opW msg 2
  let w2 := opW msg 4
  let t := fld w0 3 14
  orErr (form src msg (full :: sesMasks)
      ++ [(!q && !roleOk s src msg 3 false, 3, 0), (t ≠ 0 && tenState s t = 0, 5, 0), (tenBusy s (msgTen src msg) false || tenBusy s t false, 0o21, 0),
          (decide (16384 ≤ n), 7, 1), (fld w2 16 25 ≠ 0 && fld w2 26 29 = 0, 7, 4), (bit w2 30 && fld w0 1 2 ≠ 2, 7, 4)])
    (.chg { apply := installSession n ws, recs := fun s => [sesRec s n], res := [], adm := none, touched := fun _ => [] })

/-- SESSION_INSTALL (R446, R467). -/
def execSessionInstall (src : MbSrc) (msg : List Word) (s : State) : Host.Outcome State Fault Refusal :=
  command 0o100 .c planSessionInstall src msg noHide s

def planSessionRetire (q : Bool) (src : MbSrc) (msg : List Word) (s : State) : Plan :=
  let n := (opW msg 1).toNat
  orErr (form src msg [full]
      ++ [(!q && !roleOk s src msg 3 false, 3, 0), (!sesValid s n, 5, 0), (tenBusy s (msgTen src msg) false || tenBusy s (sesTenant s n) false, 0o21, 0),
          ((bindings s).any fun x => x.ses = n, 6, 0)])
    (.chg { apply := fun s => dropSession n (setUp n false s), recs := fun _ => [gone 4 [n], gone 5 [n, 0], gone 5 [n, 1]], res := [],
            adm := none, touched := fun _ => [] })

/-- SESSION_RETIRE (R501). -/
def execSessionRetire (src : MbSrc) (msg : List Word) (s : State) : Host.Outcome State Fault Refusal :=
  command 0o101 .c planSessionRetire src msg noHide s

/-! ### Keys -/

/-- The checks on the session and slot that a key command names. -/
def keyChecks (s : State) (src : MbSrc) (msg : List Word) (n : Nat) : List (Bool × Nat × Nat) :=
  let here := sesValid s n
  [(kernelZero s src 3 msg, 4, 0), (here && sesTenant s n ≠ msgTen src msg && !isConf s src, 4, 0),
   (here && asKernel s src 3 && sesKind s n ≠ 0, 4, 0), (!here || sesKind s n = 3, 5, 0)]

/-- A slot is loaded (R448). -/
def loadKey (n k : Nat) (key salt : List Octet) (s : State) : State :=
  keySync n (modKey n k (fun _ => { KeySlot.reset with loaded := true, key := key, salt := salt }) s)

/-- The operand words that hold the key and the salt. -/
def keyWord (i : Nat) : Bool := decide (2 ≤ i ∧ i ≤ 10)

/-- They leave the command area (R501). -/
def eraseKey (src : MbSrc) (s : State) : State :=
  match mbCmd src with
  | some a => s.css (a + 2) (List.replicate 9 0)
  | none => s

/-- A key slot as the store holds it: TKID, then key and salt under one wrap, filled with four zero octets (log entry 88). -/
def keyRec (s : State) (n k : Nat) (key salt : List Octet) : StoreRec :=
  { rtype := 5, key := [n, k], data := mkW (sesTkid s n) :: lanesOf (aesWrap (storeKey s) (key ++ salt ++ zeros 4)) }

def planKeyInstall (q : Bool) (src : MbSrc) (msg : List Word) (s : State) : Plan :=
  let n := fld (opW msg 1) 0 13
  let k := fld (opW msg 1) 14 14
  let kw := (msg.drop 2).take 8
  let sw := opW msg 10
  orErr (form src msg (maskW 0 14 :: List.replicate 9 full) ++ [(!q && !roleOk s src msg 3 true, 3, 0)] ++ keyChecks s src msg n
      ++ [(tenBusy s (msgTen src msg) false || tenBusy s (sesTenant s n) false, 0o21, 0), (sesTkid s n = k && !keyDead (keyOf s n k), 6, 0)])
    (.chg { apply := loadKey n k (octetsOf kw) (octetsOf [sw]),
            recs := fun s => [keyRec s n k (octetsOf kw) (octetsOf [sw])], res := [], adm := none,
            touched := fun _ => [] })

/-- KEY_INSTALL (R448, R501). -/
def execKeyInstall (src : MbSrc) (msg : List Word) (s : State) : Host.Outcome State Fault Refusal :=
  manage 0o102 src msg (fun s => runPlan .c src msg keyWord (planKeyInstall false src msg s) (eraseKey src s)) s

def planKeySelect (q : Bool) (src : MbSrc) (msg : List Word) (s : State) : Plan :=
  let n := fld (opW msg 1) 0 13
  let k := fld (opW msg 1) 14 14
  orErr (form src msg [maskW 0 14] ++ [(!q && !roleOk s src msg 3 true, 3, 0)] ++ keyChecks s src msg n)
    (.chg { apply := fun s => keySync n (s.csf (rSes n 0) 29 29 k), recs := fun s => [sesRec s n], res := [], adm := none,
            touched := fun _ => [] })

/-- KEY_SELECT (R449). -/
def execKeySelect (src : MbSrc) (msg : List Word) (s : State) : Host.Outcome State Fault Refusal :=
  command 0o103 .q planKeySelect src msg noHide s

/-! ### Ports and streams -/

/-- Welana's writes in order: the first that is declared failed, by its place, or the state after all. -/
def welTry : Nat → List (Nat × Word) → State → Sum Nat State
  | _, [], s => .inr s
  | i, (o, w) :: r, s =>
    let a := cwWrite1 .mgmt 2 o w s
    match a.1 with
    | some _ => .inl i
    | none => welTry (i + 1) r a.2

/-- The same writes, one after another. -/
def welAll (ws : List (Nat × Word)) (s : State) : State := ws.foldl (fun s p => welW p.1 p.2 s) s

def portWrites (msg : List Word) : List (Nat × Word) :=
  let p := fld (opW msg 1) 0 1
  let o := fld (opW msg 1) 2 13
  (List.zipWith Prod.mk (List.range 64) (msg.drop 3)).map fun x => (portBlk p + o + x.1, x.2)

def planPortSet (q : Bool) (src : MbSrc) (msg : List Word) (s : State) : Plan :=
  let p := fld (opW msg 1) 0 1
  let o := fld (opW msg 1) 2 13
  let n := (opW msg 2).toNat
  let cnt := decide (1 ≤ n ∧ n ≤ 64)
  orErr (form src msg (maskW 0 13 :: full :: List.replicate (if cnt then n else msgNW msg - 2) full)
      ++ [(!q && !roleOk s src msg 3 false, 3, 0), (tenBusy s (msgTen src msg) false, 0o21, 0), (decide (4096 < o + n), 7, 1), (!cnt, 7, 2)])
    (match welTry 3 (portWrites msg) s with
     | .inl i => .err 7 i
     | .inr _ => .chg
        { apply := welAll (portWrites msg),
          recs := fun _ => (List.zipWith Prod.mk (List.range 64) (msg.drop 3)).map fun x => { rtype := 8, key := [p, o + x.1], data := [x.2] },
          res := [], adm := none, touched := fun _ => [] })

/-- PORT_SET: words of a port block. -/
def execPortSet (src : MbSrc) (msg : List Word) (s : State) : Host.Outcome State Fault Refusal :=
  command 0o104 .c planPortSet src msg noHide s

/-- Words of a stream entry, of a gate, of a meter with its flags (R429, R430). -/
def streamMasks (kind n : Nat) : List Word :=
  match kind with
  | 0 => [maskW 0 18, full, full, full, full, maskW 0 15, maskW 0 29, maskW 0 21]
  | 1 => maskW 0 12 :: maskW 6 35 :: full :: full :: List.replicate 12 (maskW 0 0 ||| maskW 8 35)
  | 2 => [full, full, maskW 0 1]
  | _ => List.replicate n full

/-- The writes, a gate's control word last: it starts the change (R424). -/
def streamWrites (kind i : Nat) (ws : List Word) : List (Nat × Word) :=
  match kind with
  | 0 => (List.range 8).map fun j => (stBlk i + j, ws.getD j 0)
  | 1 => (List.range 15).map (fun j => (rGctl true i + j + 1, ws.getD (j + 1) 0)) ++ [(rGctl true i, ws.headD 0)]
  | _ => [(ethBlk + 0o72000 + 2 * i, ws.getD 0 0), (ethBlk + 0o72000 + 2 * i + 1, ws.getD 1 0), (ethBlk + 0o76000 + i, ws.getD 2 0)]

/-- Ranges of a stream entry's word 7. -/
def streamRange (kind : Nat) (ws : List Word) : Bool :=
  let w := ws.getD 7 0
  kind = 0 && bit w 5 && decide (fld w 6 11 < 2 ∨ 32 < fld w 6 11 ∨ fld w 12 21 < 1 ∨ 1000 < fld w 12 21)

def planStreamSet (q : Bool) (src : MbSrc) (msg : List Word) (s : State) : Plan :=
  let kind := fld (opW msg 1) 0 1
  let i := fld (opW msg 1) 2 11
  let ws := msg.drop 2
  let writes := streamWrites kind i ws
  orErr (form src msg (maskW 0 11 :: streamMasks kind (msgNW msg - 1))
      ++ [(!q && !roleOk s src msg 3 false, 3, 0), (tenBusy s (msgTen src msg) false, 0o21, 0), (kind = 1 && decide (i < 64) && s.cb (rGctl true i) 2, 6, 0),
          (kind = 3 || (kind = 1 && decide (64 ≤ i)), 7, 1), (streamRange kind ws, 7, 9)])
    (match welTry 0 writes s with
     | .inl j => .err 7 (if kind = 1 then (if j = 15 then 2 else j + 3) else j + 2)
     | .inr _ => .chg
        { apply := welAll writes, recs := fun _ => [{ rtype := 9, key := [kind, i], data := ws }], res := [], adm := none,
          touched := fun _ => [] })

/-- STREAM_SET: a stream entry, a stream gate or a flow meter. -/
def execStreamSet (src : MbSrc) (msg : List Word) (s : State) : Host.Outcome State Fault Refusal :=
  command 0o105 .c planStreamSet src msg noHide s

/-! ### Device time -/

/-- A field of n bits as a signed number. -/
def sgnField (v n : Nat) : Int := if v < 2 ^ (n - 1) then v else (v : Int) - 2 ^ n

/-- The priorities and the sync interval of gPTP, without the step. -/
def timeSettings (w : Word) (s : State) : State :=
  s.modNet fun n => { n with prio1 := fld w 0 7, prio2 := fld w 8 15, logSync := sgnField (fld w 16 21) 6 }

def planTimeSet (q : Bool) (src : MbSrc) (msg : List Word) (s : State) : Plan :=
  let w := opW msg 1
  let stp := bit w 22
  orErr (form src msg (maskW 0 22 :: if stp then [full, full] else [])
      ++ [(!q && !roleOk s src msg 3 false, 3, 0), (tenBusy s (msgTen src msg) false, 0o21, 0), (stp && s.cb rRUCTL 0, 6, 0),
          (decide (sgnField (fld w 16 21) 6 < -5 ∨ 0 < sgnField (fld w 16 21) 6), 7, 1)])
    (.chg { apply := fun s => timeSettings w (if stp then (dtStep (opW msg 2) (opW msg 3) s).2 else s),
            recs := fun _ => [{ rtype := 13, key := [], data := [setBit w 22 false] }], res := [], adm := none, touched := fun _ => [] })

/-- TIME_SET (R437, R503). -/
def execTimeSet (src : MbSrc) (msg : List Word) (s : State) : Host.Outcome State Fault Refusal :=
  command 0o106 .c planTimeSet src msg noHide s

/-! ### Channels (R391 to R393) -/

/-- R393 lets channel n of mover c be bound to tenant t. -/
def sealRule (s : State) (c n t : Nat) : Bool :=
  (List.range 16).all fun m =>
    m = n || !chBound s c m
      || (let u := s.cf (rMVBIND c m) 0 11
          u = t || (!tenSealed s t && !tenSealed s u))

/-- Channel n of mover c is free for tenant t. -/
def chFree (s : State) (t c n : Nat) : Bool := !chBound s c n && !(s.mover c).retired && sealRule s c n t

/-- The value that a binding writes. -/
def bindWord (w : Word) : Word := setBit w 12 true

def chanRec (c n : Nat) (w : Word) : StoreRec := { rtype := 7, key := [c, n], data := [w] }

def planChannelBind (q : Bool) (src : MbSrc) (msg : List Word) (s : State) : Plan :=
  let c := fld (opW msg 1) 0 3
  let n0 := fld (opW msg 1) 4 8
  let w := bindWord (opW msg 2)
  let t := fld w 0 11
  let own := msgTen src msg
  let any_ := n0 = 16
  let sane := decide (c < 12 ∧ n0 ≤ 16)
  let boundTo := s.cf (rMVBIND c n0) 0 11
  let mine := !any_ && sane && chBound s c n0
  let frees := (List.range 16).filter fun n => sane && chFree s t c n
  let n := if any_ then (choose frees).getD 0 else n0
  orErr (form src msg [maskW 0 8, maskW 0 33]
      ++ [(!q && !roleOk s src msg 3 true, 3, 0), (kernelZero s src 3 msg, 4, 0),
          (!isConf s src && (t ≠ own || (mine && boundTo ≠ own)), 4, 0),
          (asKernel s src 3 && (decide (1 < fld w 13 14) || bit w 15 || fld w 16 33 = 0), 4, 0),
          (t ≠ 0 && tenState s t = 0, 5, 0), (tenBusy s own false || tenBusy s t false, 0o21, 0),
          (!any_ && sane && (armed s c n0 false || armed s c n0 true || (s.mover c).retired || !sealRule s c n0 t), 6, 0),
          (!sane, 7, 1), (fld w 13 14 = 3 || (t ≠ 0 && (fld w 13 14 = 2 || bit w 15 || fld w 16 33 = 0)), 7, 2),
          (t ≠ 0 && !(mine && boundTo = t) && decide ((quotaOf s t).maxCh ≤ (tenChans s t).length), 8, 0),
          (any_ && frees.isEmpty, 0o12, 0)])
    (.chg { apply := welW (rMVBIND c n) w, recs := fun _ => [chanRec c n w], res := [place 0 3 c ||| place 4 8 n], adm := none,
            touched := fun _ => [] })

/-- CHANNEL_BIND (R391, R393, R495). -/
def execChannelBind (src : MbSrc) (msg : List Word) (s : State) : Host.Outcome State Fault Refusal :=
  command 0o120 .c planChannelBind src msg noHide s

def planChannelUnbind (q : Bool) (src : MbSrc) (msg : List Word) (s : State) : Plan :=
  let c := fld (opW msg 1) 0 3
  let n := fld (opW msg 1) 4 8
  let sane := decide (c < 12 ∧ n < 16)
  let here := sane && chBound s c n
  let t := s.cf (rMVBIND c n) 0 11
  orErr (form src msg [maskW 0 8]
      ++ [(!q && !roleOk s src msg 3 true, 3, 0), (kernelZero s src 3 msg, 4, 0), (here && t ≠ msgTen src msg && !isConf s src, 4, 0),
          (sane && !here, 5, 0), (tenBusy s (msgTen src msg) false || (here && tenBusy s t false), 0o21, 0), (!sane, 7, 1)])
    (.chg { apply := unbindChan c n, recs := fun _ => [gone 7 [c, n]], res := [], adm := none, touched := fun _ => [] })

/-- CHANNEL_UNBIND (R392). -/
def execChannelUnbind (src : MbSrc) (msg : List Word) (s : State) : Host.Outcome State Fault Refusal :=
  command 0o121 .c planChannelUnbind src msg noHide s

end Sys2Proof.Machine
end

