-- ==== Sys2Proof/Machine/ManFw.lean ====
section
/-! DEFINITION. Management commands on firmware (R260, R266 to R268, R483, R495, R497, R502, R530 to R534, R562 to R564,
R583). -/

namespace Sys2Proof.Machine

/-! ### Operands -/

def fwKind (msg : List Word) : Nat := fld (opW msg 1) 0 2
def fwSource (msg : List Word) : Nat := fld (opW msg 1) 3 10
def fwTarget (msg : List Word) : Nat := fld (opW msg 1) 11 18

/-- The tenant whose image it is: tenant 0 for kinds 0 to 3. -/
def fwTen (src : MbSrc) (msg : List Word) : Nat := if fwKind msg < 4 then 0 else msgTen src msg

/-- The index under which an image is kept: the target for tenant code, else 0. -/
def fwIndex (msg : List Word) : Nat := if fwKind msg = 4 then fwTarget msg else 0

/-- The image that a command names. -/
def fwNamed (s : State) (src : MbSrc) (msg : List Word) : Option Staged :=
  s.wel.staged.find? fun x => x.kind = fwKind msg && x.tenant = fwTen src msg && x.index = fwIndex msg

/-- The checks on role, lifecycle and scope that the three commands share. -/
def fwOpening (q : Bool) (s : State) (src : MbSrc) (msg : List Word) (lifeToo : Bool) : List (Bool × Nat × Nat) :=
  [(!q && !roleOk s src msg 3 true, 3, 0), (lifeToo && decide (3 ≤ fwKind msg) && lifeBad s true false, 0o20, 0),
   (kernelZero s src 3 msg || (asKernel s src 3 && fwKind msg ≠ 4), 4, 0)]

/-! ### FIRMWARE STAGE (R502) -/

/-- The words of an image in lane form, and with its body after it, in whole lines (log entry 39). -/
def imgWords (n : Nat) : Nat := ((n + 3) / 4 + 7) / 8 * 8
def winWords (w : List Octet) : Nat := imgWords w.length + ((bodyWords (imgBody w)).length + 7) / 8 * 8

/-- The octets of the source segment. -/
def sourceOctets (s : State) (base n : Nat) : List Octet :=
  (octetsOf ((List.range ((n + 3) / 4)).map fun i => (peekLine s ((base + i) / 8)).1.getD ((base + i) % 8) 0)).take n

/-- The copy, and then the lock. -/
def copyLock (i b : Nat) (w : List Octet) (s : State) : State :=
  let s := cohPokes (b + imgWords w.length) (bodyWords (imgBody w)) (cohOctets b w s)
  welWs (rLKW i) [place 1 1 1, place 1 35 b, mkW (winWords w)] s |> welW (rLKW i) (place 0 1 3)

/-- Whether an image fits its use, beyond its signature: the conditions on customer routines, and segment entries within the
body of a mantle. -/
def imgFits (w : List Octet) : Bool :=
  match imgKind w with
  | 3 => custImageOk (bodyMicro (imgBody w) 256) (bodyDir (imgBody w))
  | 0 => (mantleSegs w).all fun p => decide (p.2.1 + p.2.2 ≤ (bodyWords (imgBody w)).length)
      && (sizeCode p.2.2).any fun c => codedSize c = p.2.2 && decide (p.2.2 ≤ codeMax)
  | 4 => (sizeCode (bodyWords (imgBody w)).length).any fun c => decide (codedSize c ≤ codeMax)
  | _ => true

/-- A code-type descriptor over the body of an image from word `first` of it on (R499). -/
def codeDesc (x : Staged) (first n lvl : Nat) : Word × Word :=
  match sizeCode n with
  | some c => mkDesc false (x.first + imgWords x.image.length + first) tyCode 1 x.tenant lvl c
  | none => (0, 0)

/-- The descriptor over the whole body, for tenant code. -/
def bodyDesc (x : Staged) : Word × Word := codeDesc x 0 (bodyWords (imgBody x.image)).length x.minlvl

def planFirmwareStage (q : Bool) (src : MbSrc) (msg : List Word) (s : State) : Plan :=
  let k := fwKind msg
  let t := fwTen src msg
  let i := fwIndex msg
  let d := cfgDesc s t (fwSource msg)
  let ty := fld d.2 0 2
  let n := (opW msg 2).toNat
  let tgt := cfgDesc s t i
  let old := fwNamed s src msg
  let w := sourceOctets s (fld d.1 1 35) n
  let v := verifyImage s w k
  let first := k = 4 && (descAbsent tgt.2 || old.any fun x => x.newIndex = i)
  orErr (form src msg [maskW 0 20, full] ++ fwOpening q s src msg true
      ++ [(descAbsent d.2 || (k = 4 && tenState s t = 0), 5, 0), (tenBusy s (msgTen src msg) false, 0o21, 0),
          ((match old with
            | some x => x.active || staging s k
            | none => false) || (k = 1 && s.cf rMPSTAT 1 2 ≠ 2) || (k = 3 && s.wel.bankSwitch.isSome)
            || (k = 4 && !descAbsent tgt.2 && fld tgt.2 0 2 ≠ tyCode), 6, 0),
          (decide (4 < k) || !(ty = tyData || ty = tyCode) || (k = 4 && (t = 0 || i = 255)) || fld (opW msg 1) 19 20 = 3, 7, 1),
          (decide (n = 0 ∨ 4 * descSize d.2 < n), 7, 2), (v ≠ 1 && !imgFits w, 7, 1)])
    (let need := winWords w
     let region := if k = 0 || k = 4 then placeIn t (prgRegion s) [] need s else placeWin false need s
     match freeWin s, region with
     | some j, some b =>
       let x : Staged :=
         { kind := k, tenant := t, index := i, minlvl := fld (opW msg 1) 19 20, newIndex := if first then i else 255, win := j,
           first := b, words := need, image := w, active := false, swTime := 0 }
       orErr [(v = 4, 0o14, 0), (v ≠ 0, 0o13, 0)]
         (.chg
          { apply := fun s =>
              let s := match old with
                | some x => releaseWin x.win (dropStaged x s)
                | none => s
              let s := copyLock j b w s
              let s := if k = 1 then setCode (1 - s.cf rMPSTAT 0 0) w (s.csf rMPSTAT 1 2 1) else s
              s.modWel fun g => { g with staged := g.staged ++ [x] },
            recs := fun s => verRecord s :: if first then [descRec t i (bodyDesc x)] else [], res := [], adm := none,
            touched := fun _ => [] })
     | _, _ => .err 0o12 0)

/-- FIRMWARE_STAGE: its result is posted by FIRMWARE_STAGE_COMPLETE. -/
def execFirmwareStage (src : MbSrc) (msg : List Word) (s : State) : Host.Outcome State Fault Refusal :=
  command 0o140 .l planFirmwareStage src msg noHide s

/-- What the end of staging leaves ready, by kind (R266, R267, R499, R530). -/
def stagedReady (x : Staged) (s : State) : State :=
  match x.kind with
  | 1 => if s.cf rMPSTAT 1 2 = 1 then s.csf rMPSTAT 1 2 2 else s
  | 2 => s.modWel fun w => { w with newV := bodyMicro (imgBody x.image) 1792 }
  | 3 =>
    let b := bodyMicro (imgBody x.image) 256
    let d := bodyDir (imgBody x.image)
    let v := imgVersion x.image
    let new := !s.wel.custBank
    let s := s.modWel fun w =>
      if new then { w with gold1 := b, goldD1 := d, verCust1 := v } else { w with gold0 := b, goldD0 := d, verCust0 := v }
    (List.range 144).foldl (fun s e =>
      if (s.e e).run.inService then
        (s.modE e fun g => { g with cstore :=
          if new then { g.cstore with bank1 := b, dir1 := d } else { g.cstore with bank0 := b, dir0 := d } }).csf (rCSSTAT e) 25 25 1
      else s) s
  | 4 => if x.newIndex = x.index then installDesc x.tenant x.index (bodyDesc x) s else s
  | _ => s

/-- The end of a class L command: its result, and it is under way no more. -/
def endJob (j : LJob) (err : Nat) (ws : List Word) (s : State) : State :=
  let s := qlenSync (s.modWel fun w => { w with ljobs := w.ljobs.filter fun y => y ≠ j })
  let m := [place 0 8 j.code]
  if err = 0 then postOk j.src m ws s else postErr j.src m err 0 s

/-- FIRMWARE_STAGE_COMPLETE (R502): the result is the image version. -/
def execFirmwareStageComplete (kind target : Nat) (s : State) : Host.Outcome State Fault Refusal :=
  if !decide (kind < 8 ∧ target < 256) then .fault .noSuchUnit
  else .next (
    match s.wel.ljobs.find? fun j => j.code = 0o140 && fld (mkW j.a) 0 2 = kind && fld (mkW j.a) 11 18 = target with
    | none => s
    | some j =>
      let t := if kind < 4 then 0 else j.b
      match s.wel.staged.find? fun x => x.kind = kind && x.tenant = t && x.index = (if kind = 4 then target else 0) with
      | none => endJob j 0 [0] s
      | some x => stagedReady x (endJob j 0 [mkW (imgVersion x.image)] s))

/-! ### FIRMWARE ACTIVATE (R266 to R268, R530 to R534) -/

def actMask : Word := maskW 0 2 ||| maskW 11 18

/-- The classes of an image of the boot set admit a live switch (R268, R534). -/
def classOk (s : State) (x : Staged) : Bool :=
  match x.kind with
  | 0 => imgClass x.image = s.wel.clsMantle && mcAccepts (u8 x.image 72) s.wel.clsVendor
  | 1 => imgClass x.image = s.wel.clsWelana
  | 2 => imgClass x.image = s.wel.clsVendor
  | _ => true

/-- The conditions under which an image switches now (R266, R268, R530, R534). -/
def switchOk (s : State) (x : Staged) : Bool :=
  classOk s x && match x.kind with
  | 1 => s.cf rMPSTAT 1 2 = 2
  | 3 => (List.range 144).all fun e => !(s.e e).run.inService || s.cb (rCSSTAT e) 25
  | _ => true

/-- The staged images of the boot set whose class admits no live switch go into the other slot at a device reset, whose start takes
them up (R268, R534; the spec does not say how they come there: DEDUCED, log entry 82). -/
def keepRefused (s : State) : State :=
  (s.wel.staged.filter fun x => !classOk s x && !staging s x.kind).foldl (fun s x => keepImage x s) s

/-- Free descriptor indices of a tenant; 255 is the mailbox's. -/
def freeIdx (s : State) (t : Nat) : List Nat := (List.range 255).filter fun i => descAbsent (cfgDesc s t i).2

/-- A remap entry with its staged segment. -/
def putRemap (entry t old new : Nat) (d : Word × Word) (time : Nat) (s : State) : State :=
  welWs (rCREMAP entry) [bitAt 0 true ||| place 1 12 t ||| place 13 20 old ||| place 21 28 new, 0, timeHi time, timeLo time]
    (installDesc t new d s)

/-- The segments that an activation puts under new indices: the old index, the new one, the remap entry, the descriptor; none
where an index or an entry lacks. -/
def remapPlan (s : State) (x : Staged) : Option (List (Nat × Nat × Nat × (Word × Word))) :=
  let want : List (Nat × (Word × Word)) :=
    if x.kind = 0 then (mantleSegs x.image).map fun p => (p.1, codeDesc x p.2.1 p.2.2 2)
    else if x.kind = 4 && x.newIndex ≠ x.index then [(x.index, bodyDesc x)]
    else []
  let free_ := (freeIdx s x.tenant).filter fun i => !(want.any fun p => p.1 = i)
  let ents := freeRemaps s
  if want.length ≤ free_.length ∧ want.length ≤ ents.length then
    some ((List.zipWith Prod.mk want (List.zipWith Prod.mk free_ ents)).map fun p => (p.1.1, p.2.1, p.2.2, p.1.2))
  else none

/-- The activation: the remap entries, the switch time, notice 005. -/
def activate (x : Staged) (rs : List (Nat × Nat × Nat × (Word × Word))) (time : Nat) (s : State) : State :=
  let ni := match x.kind, rs with
    | 4, r :: _ => r.2.1
    | _, _ => x.newIndex
  let x' := { x with active := true, swTime := time, newIndex := ni }
  let s := s.modWel fun w => { w with staged := w.staged.map fun y => if y = x then x' else y }
  let s := rs.foldl (fun s r => putRemap r.2.2.1 x.tenant r.1 r.2.1 r.2.2.2 time s) s
  match x.kind with
  | 3 =>
    let s := s.modWel fun w => { w with bankSwitch := some time, bankDone := false }
    ((tenList s).filter fun t => t ≠ 0 && tenState s t = 1).foldl (fun s t => notice t 5 3 s) s
  | 4 => if time = 0 then switched x' [] (keepImage x' (dropStaged x' s)) else notice x.tenant 5 4 s
  | _ => s

def planFirmwareActivate (q : Bool) (src : MbSrc) (msg : List Word) (s : State) : Plan :=
  let k := fwKind msg
  let st := fwNamed s src msg
  let r := switchTime s
  let pre := form src msg [actMask] ++ fwOpening q s src msg true
  match st with
  | none => orErr (pre ++ [(true, 5, 0)]) (.err 5 0)
  | some x =>
    let first := k = 4 && x.newIndex = x.index
    let timed := k = 1 || k = 3 || (k = 4 && !first)
    let time := if timed then r.1 else 0
    orErr (pre ++ [(tenBusy s (msgTen src msg) false, 0o21, 0), (x.active || staging s k || !switchOk s x, 6, 0),
        ((remapPlan s x).isNone, 0o12, 0)])
      (match remapPlan s x with
       | none => .err 0o12 0
       | some rs => .chg
          { apply := fun s => activate x rs time (if timed then (freeNext s).2 else s),
            recs := fun s => verRecord s :: rs.map fun p => descRec x.tenant p.2.1 p.2.2.2,
            res := [timeHi time, timeLo time], adm := none, touched := fun _ => [] })

/-- FIRMWARE_ACTIVATE (R530). -/
def execFirmwareActivate (src : MbSrc) (msg : List Word) (s : State) : Host.Outcome State Fault Refusal :=
  command 0o141 .c planFirmwareActivate src msg noHide s

/-! ### FIRMWARE ABANDON -/

/-- The staged image goes, and its window is released (R564); the standby management engine holds the running Welana again. -/
def abandon (x : Staged) (s : State) : State :=
  let s := releaseWin x.win (dropStaged x s)
  match x.kind with
  | 1 => setCode (1 - s.cf rMPSTAT 0 0) (codeOf s (s.cf rMPSTAT 0 0)) s
  | 2 => s.modWel fun w => { w with newV := [] }
  | 3 => (List.range 144).foldl (fun s e => s.csf (rCSSTAT e) 25 25 0) s
  | 4 => if x.newIndex = x.index then descWrite x.tenant x.index 0 0 s else s
  | _ => s

def planFirmwareAbandon (q : Bool) (src : MbSrc) (msg : List Word) (s : State) : Plan :=
  let pre := form src msg [actMask] ++ fwOpening q s src msg false
  match fwNamed s src msg with
  | none => orErr (pre ++ [(true, 5, 0)]) (.err 5 0)
  | some x =>
    let first := x.kind = 4 && x.newIndex = x.index
    orErr (pre ++ [(x.active || staging s x.kind || (first && segInUse s x.tenant x.index), 6, 0)])
      (.chg { apply := abandon x, recs := fun s => verRecord s :: if first then [gone 2 [x.tenant, x.index]] else [],
              res := [], adm := none, touched := fun _ => [] })

/-- FIRMWARE_ABANDON. -/
def execFirmwareAbandon (src : MbSrc) (msg : List Word) (s : State) : Host.Outcome State Fault Refusal :=
  command 0o142 .q planFirmwareAbandon src msg noHide s

end Sys2Proof.Machine
end

