-- ==== Sys2Proof/Machine/ManUnit.lean ====
section
/-! DEFINITION. Management commands on units and on the platform (R344, R389, R497, R503, R513, R516, R520 to R523, R526 to
R529, R568, R617, R622 to R624). -/

namespace Sys2Proof.Machine

/-! ### The reference inputs (R622, R623) -/

/-- AOK or BOK of input i. -/
def refOk (s : State) (i : Nat) : Bool := s.cb rREFSTAT (1 + i)

/-- The lowest-numbered engine in service and not in Slate. -/
def firstEngine (s : State) : Option Nat :=
  (List.range 144).find? fun e => (s.e e).run.inService && !s.sys.slate.contains (e / 12)

/-- MCAUSE bit i on that engine. -/
def mcauseFirst (i : Nat) (s : State) : State :=
  match firstEngine s with
  | some e => mcause e i s
  | none => s

/-- Input i is no longer usable. When it was in use, the root takes the other input, or holds (R622, R623). -/
def refDrop (i : Nat) (s : State) : State :=
  let s := s.csf rREFSTAT (1 + i) (1 + i) 0
  if s.cb rREFSTAT 3 || s.cf rREFSTAT 0 0 ≠ i then s
  else if refOk s (1 - i) then
    let s := (s.csf rREFSTAT 0 0 (1 - i)).csat rREFSTAT 4 15
    jEvent 0o401 0 [mkW 5, mkW i] (mcauseFirst 4 s)
  else s.csf rREFSTAT 3 3 1

/-- Input i is usable again: taken at once in hold (R623), else the standby input (R624). -/
def refBack (i : Nat) (s : State) : State :=
  let s := s.csf rREFSTAT (1 + i) (1 + i) 1
  if s.cb rREFSTAT 3 then (s.csf rREFSTAT 3 3 0).csf rREFSTAT 0 0 i else s

/-! ### Units -/

def unitKind (msg : List Word) : Nat := fld (opW msg 1) 0 3
def unitNum (msg : List Word) : Nat := fld (opW msg 1) 4 11

/-- How many units of a kind there are. -/
def unitCount (k : Nat) : Nat := [144, 12, 4, 4, 2, 2, 12].getD k 0

/-- A unit is in service. -/
def unitIn (s : State) (k u : Nat) : Bool :=
  match k with
  | 0 => (s.e u).run.inService
  | 1 => cluIn s u
  | 2 => !s.mem.retired.contains u
  | 3 => portEn s u
  | 4 => tget false s.wel.mpUp u
  | 5 => refOk s u
  | _ => !(s.mover u).retired

/-- The engines of an engine or a cluster that are in service. -/
def unitEngs (s : State) (k u : Nat) : List Nat :=
  (if k = 0 then [u] else (List.range 12).map (12 * u + ·)).filter fun e => (s.e e).run.inService

/-- The device with some engines taken away, for the admission of R526. -/
def without (es : List Nat) (s : State) : State :=
  rehome (es.foldl (fun s e => s.modE e fun g => g.modRun fun r => { r with inService := false }) s)

/-- No unit of the kind that the device needs would be left (R503). -/
def lastOfKind (s : State) (k u : Nat) : Bool :=
  match k with
  | 2 => (List.range 4).all fun n => n = u || s.mem.retired.contains n
  | 3 => !isCuff s u && (List.range 4).all fun p => p = u || isCuff s p || !portEn s p
  | 4 => !(s.cf rMPSTAT 1 2 = 2 || s.cf rMPSTAT 0 0 ≠ u)
  | _ => false

/-! ### UNIT RETIRE (R503, R526) -/

/-- A unit other than an engine or a cluster goes at once, as at its failure; cause 16 (R513). -/
def retireOther (k u : Nat) (s : State) : State :=
  let s := fltRec k u 0o16 s
  let ev := fun (s : State) => jEvent 0o401 0 [mkW k, mkW u] s
  match k with
  | 2 => ev (retireChannel u s)
  | 3 => ev (welW (portBlk u) (setBit (s.cg (portBlk u)) 0 false) s)
  | 4 =>
    let s := mpDown u s
    if s.cf rMPSTAT 0 0 = u then takeOver s else s.csf rMPSTAT 1 2 0
  | 5 => refDrop u { s with sys := { s.sys with refRetired := u :: s.sys.refRetired } }
  | _ => ev (retireMover u s)

/-- The engines of a planned retirement that are at an instruction boundary with TID.ACT at 0 leave service, and nothing is
re-run. -/
def retireResting (k u : Nat) (s : State) : State := retireEngines ((unitEngs s k u).filter (mayLeave s)) 0 s

/-- The unit as FLTREC and, for a cluster, Welana record it once all of its engines are out. -/
def retireClosed (k u : Nat) (s : State) : State :=
  if k = 1 then s.modWel fun w => { w with clusterDead := w.clusterDead ++ [u] } else s

/-- The retirement of an engine or cluster that is under way for a message. -/
def retireJob (s : State) (src : MbSrc) (msg : List Word) : Option LJob :=
  s.wel.ljobs.find? fun j => j.code = 0o160 && j.src = src && j.a = (opW msg 1).toNat

def retireChecks (src : MbSrc) (msg : List Word) (s : State) : List (Bool × Nat × Nat) :=
  let k := unitKind msg
  let u := unitNum msg
  form src msg [maskW 0 11]
    ++ [(!roleOk s src msg 2 false, 3, 0), (decide (k < 7 ∧ unitCount k ≤ u), 5, 0), (tenBusy s (msgTen src msg) false, 0o21, 0),
        (decide (k < 7) && (!unitIn s k u || lastOfKind s k u), 6, 0), (decide (7 ≤ k), 7, 1)]

/-- The start of a retirement. -/
def retireStart (src : MbSrc) (msg : List Word) (s : State) : State :=
  let k := unitKind msg
  let u := unitNum msg
  match firstErr (retireChecks src msg s) with
  | some c => postErr src msg c.2.1 c.2.2 s
  | none =>
    match (if 2 ≤ k then none else admission (without (unitEngs s k u) s) [] []) with
    | some p => postErr src msg 9 p s
    | none =>
      let s := jCommand src msg (msgTen src msg) noHide s
      let n := s.wel.jnext
      if s.wel.deltaFails then postErr src msg 0o17 0 (jEvent 0o417 (msgTen src msg) [hiW n, loW n] s)
      else if 2 ≤ k then postOk src msg [] (retireOther k u s)
      else
        let s := retireResting k u (fltRec k u 0o16 s)
        if (unitEngs s k u).isEmpty then postOk src msg [] (retireClosed k u s)
        else qlenSync (s.modWel fun w =>
          { w with ljobs := w.ljobs ++ [{ src := src, code := 0o160, a := (opW msg 1).toNat, b := msgTen src msg, jseq := w.jnext }] })

/-- Its progress, as the engines come to such a boundary. -/
def retireGoOn (j : LJob) (src : MbSrc) (msg : List Word) (s : State) : State :=
  let k := unitKind msg
  let u := unitNum msg
  let s := retireResting k u s
  if !(unitEngs s k u).isEmpty then s
  else postOk src msg [] (qlenSync ((retireClosed k u s).modWel fun w => { w with ljobs := w.ljobs.filter fun y => y ≠ j }))

/-- UNIT_RETIRE (R526). While an engine of the unit still runs an activation, the row comes again for each boundary at which one
can leave; the result is posted when all are out. -/
def execUnitRetire (src : MbSrc) (msg : List Word) (s : State) : Host.Outcome State Fault Refusal :=
  match retireJob s src msg with
  | some j => if manOk 0o160 src msg then .next (retireGoOn j src msg s) else .fault .noSuchUnit
  | none => manage 0o160 src msg (retireStart src msg) s

/-! ### UNIT RESTORE (R389, R527, R528) -/

/-- What a restore begins. -/
def restoreBegin (k u : Nat) (s : State) : State :=
  match k with
  | 2 => s.modMem fun m => { m with restoring := m.restoring ++ [u] }
  | 3 => welW (portBlk u) (setBit (s.cg (portBlk u)) 0 true) s
  | 4 => s.csf rMPSTAT 1 2 1
  | _ => s

def planUnitRestore (_q : Bool) (src : MbSrc) (msg : List Word) (s : State) : Plan :=
  let k := unitKind msg
  let u := unitNum msg
  orErr (form src msg [maskW 0 11]
      ++ [(!roleOk s src msg 2 false, 3, 0), (decide (k < 7 ∧ unitCount k ≤ u), 5, 0), (tenBusy s (msgTen src msg) false, 0o21, 0),
          (decide (k < 7) && (unitIn s k u || (k = 0 && !cluIn s (u / 12))), 6, 0), (decide (7 ≤ k), 7, 1),
          (k = 2 && decide (48 < slotsUsedBy s []), 9, 0o201)])
    (.chg { apply := restoreBegin k u, recs := fun _ => [], res := [], adm := none, touched := fun _ => [] })

/-- UNIT_RESTORE: its result is posted by UNIT_RESTORE_COMPLETE. -/
def execUnitRestore (src : MbSrc) (msg : List Word) (s : State) : Host.Outcome State Fault Refusal :=
  command 0o161 .l planUnitRestore src msg noHide s

/-- A cluster comes back: reset, and its twelve engines (R626, R527). -/
def restoreCluster (c : Nat) (s : State) : State :=
  let s := s.modWel fun w => { w with clusterDead := w.clusterDead.filter (· ≠ c) }
  (List.range 12).foldl (fun s i => restoreEngine (12 * c + i) s) s

/-- A restored unit is back in service. -/
def restoreEnd (k u : Nat) (s : State) : State :=
  let ev := fun (s : State) => jEvent 0o402 0 [mkW k, mkW u] s
  match k with
  | 0 => ev (restoreEngine u s)
  | 1 => ev (restoreCluster u s)
  | 2 => ev (rebuildChannel u s)
  | 3 => s
  | 4 =>
    let s := (s.csf rMPSTAT 1 2 2).modWel fun w => { w with mpUp := tset false w.mpUp u true }
    ev (setCode u (codeOf s (s.cf rMPSTAT 0 0)) s)
  | 5 => ev (refBack u { s with sys := { s.sys with refRetired := s.sys.refRetired.filter (· ≠ u) } })
  | _ => ev (s.modMover u fun m => { m with retired := false, queue := [], cur := none })

/-- A restore that failed its self-test or its training leaves the unit retired. -/
def restoreFailed (k u : Nat) (s : State) : State :=
  match k with
  | 2 => s.modMem fun m => { m with restoring := m.restoring.filter (· ≠ u) }
  | 4 => s.csf rMPSTAT 1 2 0
  | _ => s

/-- UNIT_RESTORE_COMPLETE (R389, R527). A port is restored when its LINK is 1. -/
def execUnitRestoreComplete (ukind unit : Nat) (pass : Bool) (s : State) : Host.Outcome State Fault Refusal :=
  if !decide (ukind < 7 ∧ unit < unitCount ukind) then .fault .noSuchUnit
  else .next (
    match s.wel.ljobs.find? fun j => j.code = 0o161 && fld (mkW j.a) 0 3 = ukind && fld (mkW j.a) 4 11 = unit with
    | none => s
    | some j =>
      if !pass then endJob j 0o16 [] (restoreFailed ukind unit s)
      else if ukind = 3 && !portLink s unit then s
      else endJob j 0 [] (restoreAdmission (restoreEnd ukind unit s)))

/-! ### GROUPS SET (R503) -/

/-- The platform record (R509). -/
def platRec (s : State) : StoreRec :=
  { rtype := 0o12, key := [], data := [s.wel.groups, s.cg rRSVCFG, s.cg rMIRBND, s.cg rPRGBND, s.cg rDTBASE] }

def planGroupsSet (q : Bool) (src : MbSrc) (msg : List Word) (s : State) : Plan :=
  let w := opW msg 1
  let s' := s.modWel fun x => { x with groups := w }
  let small := (groupsUsed s').any fun g => decide (((List.range 12).filter fun c => groupOf s' c = g).length < 2)
  let stray := (ctxList s).any fun k => ctxState s k ≠ 0 && !recF (ctxWords s k) 0 21 21 = 1
    && !((groupsUsed s').any fun g => groupMask s' g = recF (ctxWords s k) 1 8 19)
  orErr (form src msg [full] ++ [(!q && !roleOk s src msg 3 false, 3, 0), (tenBusy s (msgTen src msg) false, 0o21, 0), (small || stray, 6, 0)])
    (.chg { apply := fun s => s.modWel fun x => { x with groups := w }, recs := fun s => [platRec s], res := [], adm := some [],
            touched := fun s => (pools s).map Pool.num ++ [0o200, 0o201, 0o202] })

/-- GROUPS_SET. -/
def execGroupsSet (src : MbSrc) (msg : List Word) (s : State) : Host.Outcome State Fault Refusal :=
  command 0o162 .c planGroupsSet src msg noHide s

/-! ### POWER POLICY (R617) -/

/-- The armed contexts: a change of the operating point needs the budgets that they hold (R385). -/
def armedAll (s : State) : List Nat := (ctxList s).filter fun k => decide (2 ≤ ctxState s k)

def planPowerPolicy (q : Bool) (src : MbSrc) (msg : List Word) (s : State) : Plan :=
  let w := opW msg 1
  let opt := fld w 2 3 ≠ s.cf rPWRCTL 2 3
  orErr (form src msg [maskW 0 17] ++ [(!q && !roleOk s src msg 3 false, 3, 0), (tenBusy s (msgTen src msg) false, 0o21, 0), (fld w 2 3 = 3, 7, 1)])
    (.chg { apply := welW rPWRCTL w, recs := fun _ => [{ rtype := 0o13, key := [], data := [w] }], res := [],
            adm := if opt then some (armedAll s) else none,
            touched := fun s => if opt then (pools s).map Pool.num ++ [0o200, 0o201, 0o202, 0o203] else [] })

/-- POWER_POLICY (R617). -/
def execPowerPolicy (src : MbSrc) (msg : List Word) (s : State) : Host.Outcome State Fault Refusal :=
  command 0o163 .c planPowerPolicy src msg noHide s

/-! ### PLATFORM SET (R503, R568) -/

/-- The descriptor area moves: its descriptors are written at the new place, tenant 0's index 2 over it. -/
def moveDt (w : Word) (s : State) : State :=
  let ds := cfgDescs s
  let s := welW rDTBASE w s
  ds.foldl (fun s d =>
    let d0 := if d.t = 0 && d.i = 2 then setFld d.d0 1 35 (fld w 0 13 * mw2) else d.d0
    if installOk s d0 d.d1 then descWrite d.t d.i d0 d.d1 s else s) s

def platWrites (msg : List Word) : List (Nat × Word) :=
  [(rRSVCFG, opW msg 1), (rMIRBND, opW msg 2), (rPRGBND, opW msg 3), (rDTBASE, opW msg 4)]

/-- Writes that change nothing are left out. -/
def platNew (s : State) (msg : List Word) : List (Nat × Word) := (platWrites msg).filter fun p => p.2 ≠ s.cg p.1

/-- The shadow area meets no descriptor, tenant 0's index 2 at the descriptor area given (R357). -/
def shadowFree (s : State) (w : Word) : Bool :=
  clear_ [shadowIv s] (fld w 0 13 * mw2) mw2 && (cfgDescs s).all fun d => (d.t = 0 && d.i = 2) || installOk s d.d0 d.d1

/-- The new descriptor area meets nothing else. -/
def dtFree (s : State) (w : Word) : Bool :=
  let a := fld w 0 13 * mw2
  let old := s.cf rDTBASE 0 13 * mw2
  fld w 0 13 = s.cf rDTBASE 0 13 || clear_ (prgRegion s :: (usedIvs s).filter fun u => u ≠ (old, old + mw2)) a mw2

def planPlatformSet (q : Bool) (src : MbSrc) (msg : List Word) (s : State) : Plan :=
  let ws := platNew s msg
  let place_ := fun (i : Nat) => ((platWrites msg).findIdx? fun p => some p = ws[i]?).getD 0 + 1
  orErr (form src msg [maskW 0 1, full, full, maskW 0 13]
      ++ [(!q && !roleOk s src msg 3 false, 3, 0), (tenBusy s (msgTen src msg) false, 0o21, 0), (s.cb rRUCTL 0, 6, 0)])
    (match welTry 0 ws s with
     | .inl i => .err 7 (place_ i)
     | .inr _ =>
       let s' := welAll (ws.filter fun p => p.1 ≠ rDTBASE) s
       orErr [(!dtFree s' (opW msg 4) || !shadowFree s' (opW msg 4), 0o12, 0)]
        (.chg { apply := fun s =>
                  let s := welAll (ws.filter fun p => p.1 ≠ rDTBASE) s
                  if ws.any fun p => p.1 = rDTBASE then moveDt (opW msg 4) s else s,
                recs := fun s => [platRec s], res := [], adm := none, touched := fun _ => [] }))

/-- PLATFORM_SET. -/
def execPlatformSet (src : MbSrc) (msg : List Word) (s : State) : Host.Outcome State Fault Refusal :=
  command 0o170 .c planPlatformSet src msg noHide s

end Sys2Proof.Machine
end

