-- ==== Sys2Proof/Machine/ManPair.lean ====
section
/-! DEFINITION. Management commands on the pair and on debug grants, ADMISSION QUERY, and the store's new base (R498, R511, R537,
R543, R547, R549, R583, R605 to R607). -/

namespace Sys2Proof.Machine

/-! ### PAIRING (R537, R543, R549) -/

/-- The partner is synchronised, as its acknowledgements show: the second marker of the last resynchronisation has been applied, the
partner session is up, and its last applied marker lies within 2 ms (R543, R549). -/
def partnerSynced (s : State) : Bool :=
  partnerUp s && !s.cb rPAIRSTAT 7 && s.wel.ackSync && decide (s.net.devTime ≤ s.wel.ackEpoch + 2000 * usU)

/-- A switch time at least 10 ms ahead (log entry 38). -/
def switchoverTime (s : State) : Nat × State :=
  let r := freeNext s
  (((s.net.devTime + 10000 * usU + tickU - 1) / tickU + Config.freeLead r.1) * tickU, r.2)

/-- A stream entry names in RXP or TXP a port that the assignment makes a cuff port (R433). -/
def cuffClash (w1 : Word) (s : State) : Bool :=
  s.ctl.any fun p => decide (stBlk 0 ≤ p.1 ∧ p.1 < stBlk 1024) &&
    (List.range 4).any fun q => bit w1 (2 + q) &&
      ((p.1 % 8 = 0 && bit p.2 (3 + q)) || (p.1 % 8 = 7 && bit p.2 (1 + q)))

/-- The cuff ports (R433), the partner and the witness. -/
def pairSettings (w1 w2 : Word) (s : State) : State :=
  let s := (List.range 4).foldl (fun s p => s.csf (portBlk p) 3 3 (bit w1 (2 + p)).toNat) s
  let s := s.modWel fun w => { w with partner := fld w1 6 19, witness := fld w2 0 13, witnessEn := bit w2 14 }
  s.csf rPAIRSTAT 4 4 (sesUp s s.wel.partner).toNat

/-- PAIRING with a role; from primary to standby is the planned switchover. -/
def applyPairing (w1 w2 : Word) (s : State) : State :=
  let r := fld w1 0 1
  let old := pairRoleOf s
  let s := pairSettings w1 w2 s
  if old = 1 && r = 2 then
    let t := switchoverTime s
    t.2.modWel fun w => { w with swAt := some t.1 }
  else
    let s := if r = old then s else if r = 1 then (setRole 1 (skipStaged s)).csf rPAIRSTAT 6 6 0 else (setRole r s).csf rPAIRSTAT 6 6 0
    if r = 1 && partnerUp s then resyncDue s else s

/-- The assignment names two ports, or none for a single device (R433). -/
def cuffPair (w1 : Word) : Bool := [3, 5, 6, 9, 10, 12].contains (fld w1 2 5) || (decide (fld w1 0 1 = 0) && decide (fld w1 2 5 = 0))

def planPairing (q : Bool) (src : MbSrc) (msg : List Word) (s : State) : Plan :=
  let w1 := opW msg 1
  let w2 := opW msg 2
  let r := fld w1 0 1
  let ses := fld w1 6 19
  orErr (form src msg [maskW 0 19, maskW 0 14]
      ++ [(!q && !roleOk s src msg 3 false, 3, 0), (lifeBad s false true && decide (r = 1 ∨ r = 2), 0o20, 0),
          ((r ≠ 0 && !sesValid s ses) || (bit w2 14 && !sesValid s (fld w2 0 13)), 5, 0), (tenBusy s (msgTen src msg) false, 0o21, 0),
          (pairRoleOf s = 1 && r = 2 && !partnerSynced s, 6, 0), (cuffClash w1 s, 6, 0),
          (r = 3 || !cuffPair w1 || (r ≠ 0 && sesKind s ses ≠ 2), 7, 1), (bit w2 14 && sesKind s (fld w2 0 13) ≠ 1, 7, 2)])
    (.chg { apply := applyPairing w1 w2, recs := fun s => [pairRecord s], res := [], adm := none, touched := fun _ => [] })

/-- PAIRING. -/
def execPairing (src : MbSrc) (msg : List Word) (s : State) : Host.Outcome State Fault Refusal :=
  command 0o164 .c planPairing src msg noHide s

/-- SWITCHOVER_TIME (R549): releasing has stopped at T; once no activation is live, the final marker is sent and the device is
the standby. A staged image that a live switch refused is taken up (R534, log entry 82). -/
def execSwitchoverTime (s : State) : Host.Outcome State Fault Refusal :=
  .next (match s.wel.swAt with
    | none => s
    | some t =>
      let s := bringTo t s
      if anyLive s then s
      else
        let s := pairFlush (pairAppend (.epoch s.net.devTime) s)
        sendHeartbeat s.wel.partner (keepRefused (demoteRole s)))

/-! ### WITNESS GRANT (R547) -/

def planWitnessGrant (_q : Bool) (src : MbSrc) (msg : List Word) (s : State) : Plan :=
  orErr (form src msg [maskW 0 0, full]
      ++ [(!roleOk s src msg 2 false || src ≠ .network s.wel.witness, 3, 0),
          (!isStandby s || !s.wel.witnessEn || s.sys.arbIn = .primary || partnerUp s, 6, 0), (!bit (opW msg 1) 0, 7, 1),
          (decide ((opW msg 2).toNat < nowSec s), 7, 2)])
    (.chg { apply := promoteRole true, recs := fun s => [pairRecord s], res := [], adm := none, touched := fun _ => [] })

/-- WITNESS_GRANT. -/
def execWitnessGrant (src : MbSrc) (msg : List Word) (s : State) : Host.Outcome State Fault Refusal :=
  command 0o165 .q planWitnessGrant src msg noHide s

/-! ### DEBUG GRANT and DEBUG REVOKE (R605 to R607) -/

/-- A token is well formed for this device and names a tenant that exists. -/
def tokenOk (s : State) (w : List Octet) : Bool :=
  let t := u16 w 6
  decide (w.take 4 = [0o107, 0o122, 0o116, 0o124] ∧ u8 w 4 = 1 ∧ u8 w 5 % 16 = 0 ∧ 1 ≤ t ∧ t ≤ 4095
    ∧ beNat (cut w 8 8) = otpSerial ∧ beNat (cut w 24 5) < 2 ^ 36 ∧ beNat (cut w 29 5) < 2 ^ 36)
    && (cut w 34 14).all (· = 0) && tenState s t ≠ 0

/-- The token's time. -/
def tokenTime (s : State) (w : List Octet) : Bool :=
  let a := beNat (cut w 24 5)
  let b := beNat (cut w 29 5)
  decide (a ≤ nowSec s ∧ nowSec s ≤ b ∧ b ≤ a + 604800)

def freeGrants (s : State) : List Nat := (List.range 9).filter fun g => 1 ≤ g && (tget none s.wel.grants g).isNone

/-- The grant as the store keeps it, and the highest GSEQ. -/
def grantRecs (s : State) (g : Nat) : List StoreRec :=
  let top : StoreRec := { rtype := 0o20, key := [0], data := [hiW s.wel.gseqMax, loW s.wel.gseqMax] }
  match tget none s.wel.grants g with
  | some k => [{ rtype := 0o20, key := [g], data := [mkW k.rights, mkW k.tenant, hiW k.gseq, loW k.gseq, mkW k.notAfter] }, top]
  | none => [gone 0o20 [g], top]

def takeGrant (g : Nat) (k : GrantTok) (s : State) : State :=
  notice k.tenant 6 g (lifeSync (s.modWel fun w => { w with grants := tset none w.grants g (some k), gseqMax := k.gseq }))

def planDebugGrant (q : Bool) (src : MbSrc) (msg : List Word) (s : State) : Plan :=
  let w := octetsOf ((msg.drop 1).take 12)
  let block := octetsOf (s.cgs (bootBlk + 0o4000) 1856)
  let k : GrantTok := { rights := u8 w 5 / 16, tenant := u16 w 6, gseq := beNat (cut w 16 8), notAfter := beNat (cut w 29 5) }
  let g := (freeGrants s).headD 0
  orErr (form src msg (List.replicate 12 full)
      ++ [(!q && !roleOk s src msg 3 false, 3, 0), (lifeBad s true true, 0o20, 0), (tenBusy s (msgTen src msg) false, 0o21, 0),
          (!signerOk s .owner (sha384 w) block, 0o13, 0), (!tokenOk s w, 7, 1), (!tokenTime s w, 7, 7),
          (decide (k.gseq ≤ s.wel.gseqMax), 6, 0), ((freeGrants s).isEmpty, 0o12, 0)])
    (.chg { apply := takeGrant g k, recs := fun s => grantRecs s g, res := [mkW g], adm := none, touched := fun _ => [] })

/-- DEBUG_GRANT. -/
def execDebugGrant (src : MbSrc) (msg : List Word) (s : State) : Host.Outcome State Fault Refusal :=
  command 0o166 .c planDebugGrant src msg noHide s

def planDebugRevoke (q : Bool) (src : MbSrc) (msg : List Word) (s : State) : Plan :=
  let g := (opW msg 1).toNat
  let sane := decide (1 ≤ g ∧ g ≤ 8)
  orErr (form src msg [full] ++ [(!q && !roleOk s src msg 3 false, 3, 0), (sane && (tget none s.wel.grants g).isNone, 5, 0), (!sane, 7, 1)])
    (.chg { apply := endGrant g, recs := fun s => grantRecs s g, res := [], adm := none, touched := fun _ => [] })

/-- DEBUG_REVOKE. -/
def execDebugRevoke (src : MbSrc) (msg : List Word) (s : State) : Host.Outcome State Fault Refusal :=
  command 0o167 .q planDebugRevoke src msg noHide s

/-- The grants in effect with their last seconds. -/
def grantEnds (s : State) : List (Nat × Nat) :=
  s.wel.grants.filterMap fun p => p.2.map fun k => (p.1, k.notAfter)

/-- The grants whose NOTAFTER second has passed end (R585, R607). -/
def endPast (s : State) : State :=
  ((grantEnds s).filter fun p => decide (p.2 < nowSec s)).foldl (fun s p => endGrant p.1 s) s

/-- GRANT_EXPIRY (R585, R607): the NOTAFTER second that comes first has passed. In Sable the wake ends the grant. -/
def execGrantExpiry (s : State) : Host.Outcome State Fault Refusal :=
  .next (if s.sys.sable then s else match (grantEnds s).map Prod.snd with
    | [] => s
    | a :: r =>
      endPast (bringTo (ofTime (mkW (r.foldl min a + 1)) 0) s))

/-! ### ADMISSION QUERY (R498) -/

/-- The plan of a command that may be asked about. -/
def queryPlan (src : MbSrc) (msg : List Word) (s : State) : Option Plan :=
  match msgCmd msg with
  | 0o20 => some (planTenantCreate true src msg s)
  | 0o21 => some (planTenantRetire true src msg s)
  | 0o22 => some (planTenantSet true src msg s)
  | 0o23 => some (planTenantSeal true src msg s)
  | 0o24 => some (planTenantUnseal true src msg s)
  | 0o40 => some (planSegmentAllocate true src msg s)
  | 0o42 => some (planSegmentResize true src msg s)
  | 0o60 => some (planContextCreate true src msg s)
  | 0o61 => some (planContextSet true src msg s)
  | 0o62 => some (planContextArm true src msg s)
  | 0o162 => some (planGroupsSet true src msg s)
  | 0o163 => some (planPowerPolicy true src msg s)
  | _ => none

/-- The set with the least room: its need and its ways. -/
def tightSet (s : State) : Nat × Nat :=
  let ts := wayTenants s []
  let all := (List.range 4096).flatMap fun x => (List.range 12).map fun h => (setNeed ts h x, sharedWays s x)
  all.foldl (fun b p => if p.2 + b.1 < b.2 + p.1 then p else b) (0, 16)

/-- NEED, CAP and FAIL of a POOL number, in the state after a change. -/
def poolFigures (s : State) (c : Chg) (n : Nat) : Nat × Nat × Bool :=
  match n with
  | 0o200 => let b := tightSet s
             (b.1, b.2, !(waysOver s []).isEmpty)
  | 0o201 => (slotsUsedBy s [], 64, !slotsOk s [])
  | 0o202 => (natMax ((List.range 144).map (homeLoad s [])), 64, !(homesOver s []).isEmpty)
  | 0o203 => (0, 0, (c.adm.getD []).any (fun k => !ownOk s k) || c.shaped.any fun k => !shapeOk s k)
  | _ =>
    let p : Pool := if n < 0o100 then .shared n else .sealed_ (n - 0o100)
    (need s [] p, capacity s p, decide (capacity s p < need s [] p))

def poolWord (s : State) (c : Chg) (n : Nat) : Word :=
  let f := poolFigures s c n
  place 0 7 n ||| place 8 15 (min 255 f.1) ||| place 16 23 (min 255 f.2.1) ||| bitAt 24 f.2.2

/-- The answer to a query: PASS and the pools that the change touches. -/
def queryAnswer (src : MbSrc) (msg inner : List Word) (c : Chg) (s : State) : State :=
  let s' := c.apply s
  let ns := ((c.touched s').eraseDups.filter fun n =>
    !asKernel s src 1 || (tenPools s' (msgTen src inner)).contains n).take 127
  postOk src msg ((bitAt 0 (admitChg c s).isNone ||| place 1 7 ns.length) :: ns.map (poolWord s' c)) s

/-- ADMISSION_QUERY (R498): an inner command that fails a check is answered with its error, the operand word counted in the
query. -/
def execAdmissionQuery (src : MbSrc) (msg : List Word) (s : State) : Host.Outcome State Fault Refusal :=
  manage 3 src msg (fun s =>
    let inner := msg.drop 1
    let bad := decide (msgNW msg ≠ inner.length) || fld (msg.headD 0) 30 35 ≠ 0 || inner.isEmpty
    match firstErr [(bad, 2, 0), (!roleOk s src msg 1 true, 3, 0), (kernelZero s src 1 msg, 4, 0),
        (tenBusy s (msgTen src msg) false, 0o21, 0)] with
    | some c => postErr src msg c.2.1 c.2.2 s
    | none => match queryPlan src inner s with
      | none => postErr src msg 7 1 s
      | some (.err e d) => postErr src msg e (if e = 2 ∨ e = 7 then d + 1 else d) s
      | some (.chg c) => queryAnswer src msg inner c s) s

/-! ### The store's new base (R511) -/

/-- STORE_REBASE: when the delta area of the bank in use is three quarters full, and in any case every 24 hours, the whole state goes
into the other bank, which is then in use. -/
def execStoreRebase (s : State) : Host.Outcome State Fault Refusal :=
  .next (if !welUp s then s
    else
      let b := storeBank s
      let s := if 4 * b.used < 3 * deltaArea then bringTo (s.wel.rebaseAt + 24 * 3600 * secU) s else s
      rebase b.lastJ (standing b.recs) s)

end Sys2Proof.Machine
end

