-- ==== Sys2Proof/Machine/Start.lean ====
section
/-! DEFINITION. Resets (R13, R246, R365, R582, R625 to R627, R637, R639), device failure (R535, R536), the cold start (R565 to
R570) and the restoration of the configuration (R446, R512, R537, R572, R575, R582). -/

namespace Sys2Proof.Machine

/-! ### Reset scopes (R625, R626) -/

/-- The control-window words that outlive a device reset: the always-on block, the retained SRAM, and at a wake from Sable the
lock windows. -/
def keptWord (keepLkw : Bool) (off : Nat) : Bool :=
  decide (aonBlk ≤ off ∧ off < dbgBlk) || (keepLkw && decide (bootBlk + 0o100 ≤ off ∧ off < bootBlk + 0o200))

/-- The check words that the check caches hold are written to DRAM, whose content outlives a device reset (R626). -/
def flushChecks (m : Mem) : Tbl Word :=
  m.ckc.foldl (fun t p => p.2.foldl (fun t (c : CkLine) =>
    if c.dirty then (List.range 8).foldl (fun t i => tset 0 t (8 * c.group + i) (c.cs.getD i 0)) t else t) t) m.chk

/-- PWRSTAT after a reset: no state is held, and the operating point follows OPT. -/
def pwrstatReset (s : State) : State :=
  s.cs rPWRSTAT (place 2 3 (s.cf rPWRCTL 2 3) ||| place 17 19 (s.cf rPWRSTAT 17 19))

/-- The state after a device reset of every domain but the always-on domain; OTP, flash and DRAM content stay. -/
def deviceClear (wake : WakeCause) (keepLkw : Bool) (s : State) : State :=
  let o := s.boot.otp
  let r : State :=
    { State.reset with
      mem := { Mem.reset with dram := s.mem.dram, chk := flushChecks s.mem, purged := s.mem.purged, written := s.mem.written }
      ctl := s.ctl.filter fun p => keptWord keepLkw p.1
      wel := { Wel.reset with journal := s.wel.journal, jnext := s.wel.jnext, bankA := s.wel.bankA, bankB := s.wel.bankB }
      boot := { Boot.reset with otp := o, lifeSealed := o.sealed, lifeOpen := o.openF, wake := wake, slots := s.boot.slots,
                                vrecs := s.boot.vrecs, prov := s.boot.prov, owner := s.boot.owner }
      sys := { Sys.reset with bscan := s.sys.bscan, arbIn := s.sys.arbIn, porHeld := s.sys.porHeld,
                              refRetired := s.sys.refRetired }
      answer := s.answer, freeCtr := s.freeCtr, pending := s.pending }
  lifeSync (pwrstatReset (r.csf rPAIRSTAT 2 3 (arbCode r.sys.arbIn)))

/-- WCS: how Sable ended. -/
def wakeCode (c : Nat) (s : State) : State := if s.sys.sable then s.csf rPWRSTAT 17 19 c else s

/-- A device reset (R639): the boot sequencer runs next. -/
def deviceReset (wake : WakeCause) (s : State) : State := deviceClear wake false (wakeCode 2 (keepRefused s))

/-- Power-on reset: nothing but OTP and flash is kept (R627). -/
def powerReset (held : Bool) (s : State) : State :=
  let r := deviceClear .power false s
  let r := { r with ctl := [], mem := .reset, sys := { r.sys with porHeld := held, refRetired := [], arbIn := .absent } }
  lifeSync (pwrstatReset (r.cs rPWRCTL (ctlReset rPWRCTL)))

/-- POWER_ON_RESET (R625): PWR_OK falls, and the device is held; the row again is its rise, after which the root is qualified and
the PLLs lock. -/
def execPowerOnReset (s : State) : Host.Outcome State Fault Refusal := .next (powerReset (!s.sys.porHeld) s)

/-- DEVICE_RESET (R639, R627): RESET_N has been low for 1 µs. -/
def execDeviceReset (s : State) : Host.Outcome State Fault Refusal :=
  .next (if s.sys.porHeld then s
    else
      let r := deviceReset .reset s
      -- RESET_N does not end EXTEST, which holds the domains in device reset
      if s.sys.tap = .extest then { r with sys := { r.sys with tap := .extest, heldInReset := true } } else r)

/-! ### Device failure (R535, R536) -/

/-- The always-on domain silences the ports, drives the failed pattern and DEVFAIL_N, and holds every other domain. -/
def failDevice (s : State) : State :=
  if s.sys.porHeld || s.sys.arbOut = .failed then s
  else
    let r := deviceClear .failure false (wakeCode 3 (keepRefused s))
    { r with sys := { r.sys with heldInReset := true, arbOut := .failed, devFailN := false } }

/-- DEVICE_FAILURE: a check error in a home slice, the fabric, the release unit, the context store, or the common Ethernet and
Septeg paths; the response is the same for each of them. -/
def execDeviceFailure (_unit : FailUnit) (s : State) : Host.Outcome State Fault Refusal := .next (failDevice s)

/-- DEVICE_RESTART: 10 ms after, as after a device reset. -/
def execDeviceRestart (s : State) : Host.Outcome State Fault Refusal :=
  .next (if s.sys.arbOut ≠ .failed then s
    else { s with sys := { s.sys with heldInReset := false, arbOut := .absent, devFailN := true } })

/-- WATCHDOG_EXPIRY: Welana, which has begun its kicks, misses two of them; the watchdog stands still in Sable. -/
def execWatchdogExpiry (s : State) : Host.Outcome State Fault Refusal :=
  .next (if welUp s && !s.sys.sable then failDevice s else s)

/-- MP_HEARTBEAT_LOST (R477, R535): three heartbeats of the active engine have failed to arrive; cause 13. Without a standby the
device fails. -/
def execMpHeartbeatLost (s : State) : Host.Outcome State Fault Refusal :=
  .next (
    if !welUp s then s
    else if s.cf rMPSTAT 1 2 ≠ 2 then failDevice s
    else
      let a := s.cf rMPSTAT 0 0
      let s := fltRec 4 a 0o13 (bringTo (s.net.devTime + 6 * usU) s)
      jEvent 0o401 0 [mkW 4, mkW a] (takeOver (mpDown a s)))

/-- SUPPLY_FAULT (R634): a rail outside its range for 1 µs. Below 85 %, VDD_AON and VDD_IO bring power-on reset; so does any
rail in Sable (R616). -/
def execSupplyFault (rail : Rail) (below85 : Bool) (s : State) : Host.Outcome State Fault Refusal :=
  .next (
    if s.sys.porHeld then s
    else if (below85 && (rail = .vddAon || rail = .vddIo)) || s.sys.sable then powerReset true s
    else failDevice s)

/-! ### The choice of a slot (R566) -/

/-- The slots to try, in order. -/
def slotOrder (s : State) : List Nat :=
  let xs := if slotSeq (slotAt s 0) < slotSeq (slotAt s 1) then [1, 0] else [0, 1]
  xs.filter fun i => slotGood (slotAt s i)

/-- The set of a slot after its Welana: none for a pass, else the failure of R559, 0 where only MCACC fails. -/
def setFails (s : State) (b : BootSet) : Option Nat :=
  let a := verifyImage s b.mantle 0
  let v := verifyImage s b.vendor 2
  if a ≠ 0 then some a
  else if v ≠ 0 then some v
  else if !imgFits b.mantle || !mcAccepts (u8 b.mantle 72) (imgClass b.vendor) then some 0
  else none

def bstat (code : Nat) (s : State) : State := s.csf (bootBlk + 1) 0 5 code
def bstatFail (f : Nat) (s : State) : State := if f = 0 then s else s.csf (bootBlk + 1) 6 8 f
def setPhase (p : BootPhase) (s : State) : State := s.modBoot fun b => { b with phase := p }

/-- The line that the recovery loader uses (R576). -/
def loaderLine (s : State) : Nat × Nat × Option Nat :=
  if provOk s then (s.boot.prov.port, s.boot.prov.rate, some s.boot.prov.vid) else (0, 0, none)

/-- The boot sequencer's windows are released, MP0 is held in reset, and the lock of its code area is cleared (R566). -/
def slotFailed (s : State) : State := mpDown 0 ((List.range 4).foldl (fun s i => s.css (rLKW i) [0, 0, 0]) s)

/-- No slot has passed: the recovery loader listens. -/
def noSlot (s : State) : State :=
  (setPhase .recovery (bstat 4 ((slotFailed s).csf bootBlk 3 3 0))).modBoot fun b => { b with recLine := loaderLine s, recAnn := s.net.devTime }

/-- The Welana of slot i is copied into the code area of MP0, locked and verified there; on a pass MP0 is released (R567). -/
def tryWelana (i : Nat) (s : State) : Nat × State :=
  let s := setCode 0 (slotSet (slotAt s i)).welana s
  let f := verifyImage s s.boot.code0 1
  (f, if f ≠ 0 then slotFailed (bstatFail f s)
      else (s.csf bootBlk 3 3 i).modWel fun w => { w with mpUp := tset false w.mpUp 0 true })

/-- The first slot of a list whose Welana passes; the start then waits for memory. -/
def findWelana : List Nat → State → State
  | [], s => noSlot s
  | i :: r, s =>
    let x := tryWelana i s
    if x.1 ≠ 0 then findWelana r x.2 else setPhase .waitMem x.2

/-- COLD_START (R567), up to the wait for memory initialisation. -/
def execColdStart (env : BootEnv) (s : State) : Host.Outcome State Fault Refusal :=
  .next (
    if s.boot.phase ≠ .idle || s.sys.porHeld || s.sys.heldInReset || s.sys.sable || vok s then s
    else if !env.otpOk then setPhase .halted (bstat 3 s)
    else
      let s := if s.boot.lifeOpen then s.modOtp (Otp.program fun c => { c with dusOff := true }) else s
      if !env.flashOk then setPhase .halted (bstat 1 s)
      else findWelana (slotOrder s) (loadMinver { s with sys := { s.sys with xspiResetN := true } }))

/-! ### Loading (R567, R568) -/

/-- A boot window is locked. -/
def bootLock (i base n : Nat) (s : State) : State := s.css (rLKW i) [place 0 0 1, place 1 35 base, mkW n]

/-- An image goes into a locked window of the resident region. -/
def residentCopy (i base : Nat) (w : List Octet) (s : State) : State :=
  bootLock i base (imgWords w.length) (cohOctets base w (s.css (rLKW i) [0, 0, 0]))

/-- The octets of the image in a locked window of memory. -/
def winImage (s : State) (i n : Nat) : List Octet := sourceOctets s (s.cf (rLKW i + 1) 1 35) n

/-- The boot SRAM: the words of the mantle's body, in a locked window. -/
def loadBootSram (w : List Octet) (s : State) : State :=
  let ws := bodyWords (imgBody w)
  let t := (List.zipWith Prod.mk (List.range 262144) ws).foldl (fun t p => tset 0 t p.1 p.2) ([] : Tbl Word)
  bootLock 3 (ctlBase + bootSramBlk) 262144 (s.modMem fun m => { m with bootSram := t })

/-- DTBASE and the first descriptors of tenant 0. -/
def firstDescs (w : List Octet) (s : State) : State :=
  let b := dramWords s / mw2 - 2
  let s := s.cs rDTBASE (place 0 13 b)
  let s := cohZero (b * mw2) mw2 s
  let s := (mantleSegs w).foldl (fun s p =>
    let d := mkDesc false (ctlBase + bootSramBlk + p.2.1) tyCode 1 0 2 ((sizeCode p.2.2).getD (0, 0))
    descWrite 0 p.1 d.1 d.2 s) s
  let d2 := mkDesc false (b * mw2) tyData 6 0 2 ((sizeCode mw2).getD (0, 0))
  let d3 := mkDesc false ctlBase tyDevice 6 0 2 ((sizeCode 0o100000000).getD (0, 0))
  descWrite 0 3 d3.1 d3.2 (descWrite 0 2 d2.1 d2.2 s)

/-! ### The configuration store at a start (R512) -/

/-- The deltas of a bank that are applied. -/
def Bank.cutTo (key : List Octet) (b : Bank) : Bank := { b with deltas := goodDeltas key b.bchk b.jseq b.deltas }

/-- The bank chosen, with the deltas that are applied; false where none is good. -/
def chooseBank (s : State) : Bool × State :=
  let key := storeKey s
  let a := s.wel.bankA.good key
  let b := s.wel.bankB.good key
  let useB := b && (!a || decide (s.wel.bankA.seq < s.wel.bankB.seq))
  (a || b, s.modWel fun w =>
    { w with bankInUse := useB, bankA := w.bankA.cutTo key, bankB := w.bankB.cutTo key, rebaseAt := s.net.devTime })

/-! ### Restoring objects (R446, R509, R537, R572, R582) -/

def restTenant (r : StoreRec) (s : State) : State :=
  let t := r.key.getD 0 0
  let d := r.data
  let q : Quota := { maxCtx := (d.getD 2 0).toNat, maxSeg := (d.getD 3 0).toNat, maxCh := (d.getD 4 0).toNat, group := (d.getD 5 0).toNat }
  let s := s.css (rTen t 0) (d.take 2)
  s.modWel fun w =>
    { w with quotas := tset .reset w.quotas t q, tseq := max w.tseq (d.getD 1 0).toNat,
             shedOrder := if fld (d.getD 0 0) 0 1 = 2 then w.shedOrder ++ [t] else w.shedOrder }

def restDesc (r : StoreRec) (s : State) : State :=
  let d0 := r.data.getD 0 0
  let d1 := r.data.getD 1 0
  if fld d1 0 2 = tyCode || !installOk s d0 d1 then s else descWrite (r.key.getD 0 0) (r.key.getD 1 0) d0 d1 s

def restContext (r : StoreRec) (s : State) : State :=
  let k := r.key.getD 0 0
  s.css (rCtx k 0) (setFld (r.data.getD 0 0) 12 14 1 :: r.data.drop 1)

def restKey (r : StoreRec) (s : State) : State :=
  match aesUnwrap (storeKey s) (octetsOf (r.data.drop 1)) with
  | some o => loadKey (r.key.getD 0 0) (r.key.getD 1 0) (o.take 32) (cut o 32 4) s
  | none => s

def restGrant (r : StoreRec) (s : State) : State :=
  let g := r.key.getD 0 0
  let d := r.data
  if g = 0 then s.modWel fun w => { w with gseqMax := dbl (d.getD 0 0) (d.getD 1 0) }
  else
    let k : GrantTok := { rights := (d.getD 0 0).toNat, tenant := (d.getD 1 0).toNat, gseq := dbl (d.getD 2 0) (d.getD 3 0),
                          notAfter := (d.getD 4 0).toNat }
    if k.notAfter < nowSec s then s else lifeSync (s.modWel fun w => { w with grants := tset none w.grants g (some k) })

/-- The role: after a device failure a device of a pair is standby (R537). -/
def restPair (r : StoreRec) (s : State) : State :=
  let w1 := r.data.getD 0 0
  let role := fld w1 0 1
  setRole (if s.boot.wake = .failure ∧ role ≠ 0 then 2 else role) (pairSettings w1 (r.data.getD 1 0) s)

def restPlatform (r : StoreRec) (s : State) : State :=
  let d := r.data
  let s := s.modWel fun w => { w with groups := d.getD 0 0 }
  let s := welAll [(rRSVCFG, d.getD 1 0), (rMIRBND, d.getD 2 0), (rPRGBND, d.getD 3 0)] s
  if d.getD 4 0 = s.cg rDTBASE then s else moveDt (d.getD 4 0) s

/-- One object of the store. -/
def restObj (r : StoreRec) (s : State) : State :=
  match r.rtype with
  | 1 => restTenant r s
  | 2 => restDesc r s
  | 3 => restContext r s
  | 4 => keySync (r.key.getD 0 0) (s.css (rSes (r.key.getD 0 0) 0) r.data)
  | 5 => restKey r s
  | 6 => s.css (rBind (r.key.getD 0 0)) r.data
  | 7 => welW (rMVBIND (r.key.getD 0 0) (r.key.getD 1 0)) (r.data.getD 0 0) s
  | 0o10 => welW (portBlk (r.key.getD 0 0) + r.key.getD 1 0) (r.data.getD 0 0) s
  | 0o11 => welAll (streamWrites (r.key.getD 0 0) (r.key.getD 1 0) r.data) s
  | 0o12 => restPlatform r s
  | 0o13 => welW rPWRCTL (r.data.getD 0 0) s
  | 0o14 => restPair r s
  | 0o15 => timeSettings (r.data.getD 0 0) s
  | 0o16 => dedicateAll (r.key.getD 0 0) r.data s
  | 0o20 => restGrant r s
  | _ => s

/-- All objects, type after type: the platform first, tenants before what belongs to them. -/
def restAll (s : State) : State :=
  [0o12, 1, 0o16, 2, 3, 4, 5, 6, 7, 0o10, 0o11, 0o13, 0o14, 0o15, 0o20].foldl (fun s ty =>
    (storeObjs s ty).foldl (fun s r => restObj r s) s) s

/-- An image of the owner area is loaded where it verifies (R572), with the descriptor that this changes for the store. -/
def restOwner (o : OwnerImg) (s : State) : List StoreRec × State :=
  let w := o.image
  if verifyImage s w o.kind ≠ 0 || !imgFits w then ([], s)
  else
    let region := if o.kind = 4 then placeIn o.tenant (prgRegion s) [] (winWords w) s else placeWin false (winWords w) s
    match freeWin s, region with
    | some j, some b =>
      let s := copyLock j b w s
      if o.kind = 3 then
        ([], supersede 3 j (s.modWel fun g =>
          { g with gold0 := bodyMicro (imgBody w) 256, goldD0 := bodyDir (imgBody w), verCust0 := imgVersion w, custBank := false }))
      else
        let x : Staged := { kind := 4, tenant := o.tenant, index := o.index, minlvl := fld (cfgDesc s o.tenant o.index).2 18 19,
                            newIndex := o.index, win := j, first := b, words := winWords w, image := w, active := true, swTime := 0 }
        ([descRec o.tenant o.index (bodyDesc x)], installDesc o.tenant o.index (bodyDesc x) s)
    | _, _ => ([], s)

/-- All of them; the store then holds where their code segments lie now. -/
def restOwners (s : State) : State :=
  let r := (ownerSet s).foldl (fun (p : List StoreRec × State) o =>
    let q := restOwner o p.2
    (p.1 ++ q.1, q.2)) ([], s)
  storeDelta r.1 r.2

/-- Stored contexts that were armed are armed anew, but where a code segment that they name is not loaded. -/
def restArm (s : State) : State :=
  (storeObjs s 3).foldl (fun s r =>
    let k := r.key.getD 0 0
    let t := ctxTenant s k
    let unloaded := (cfgDescs s).any fun d => d.t = t && d.typ = tyCode && ctxNames (ctxWords s k) d.i
      && (match descRead s t d.i with
        | some x => descAbsent x.2
        | none => true)
    if fld (r.data.getD 0 0) 12 14 = 2 && tenState s t = 1 && !unloaded then occSync t (armCtx k (earliestBoundary s k) s) else s) s

/-- The bootstrap session of the Welana image, session 0, with the key of the provisioning record (R512, R581; log entry 40). -/
def bootstrapSession (w : List Octet) (s : State) : State :=
  let p := s.boot.prov
  let s := installSession 0 (unpackWords 9 (cut w 72 41)) s
  match if provOk s then aesUnwrap (storeKey s) p.wkey else none with
  | some key => loadKey 0 0 key p.salt s
  | none => s

/-- With no bank good, bank A becomes a new one, whose base holds the bootstrap session and its key (log entry 40). -/
def firstBank (s : State) : State :=
  let k := keyOf s 0 0
  flashWrite .management (.bank false) (fun s =>
    setBank false (newBank (storeKey s) false 1 s.wel.jnext (sesRec s 0 :: if k.loaded then [keyRec s 0 0 k.key k.salt] else [])) s) s

/-! ### The start (R567, R570) -/

/-- Welana's state at its start. -/
def welanaStart (b : BootSet) (s : State) : State :=
  (s.cs rMPSTAT (place 1 2 2)).modWel fun w =>
    { w with mpUp := tset false (tset false w.mpUp 0 true) 1 true, verMantle := imgVersion b.mantle, verWelana := imgVersion b.welana,
             verVendor := imgVersion b.vendor, clsMantle := imgClass b.mantle, clsWelana := imgClass b.welana,
             clsVendor := imgClass b.vendor, mcacc := u8 b.mantle 72, goldV := bodyMicro (imgBody b.vendor) 1792 }

/-- The port addresses of the fuses (R551). -/
def portMacs (s : State) : State :=
  (List.range 4).foldl (fun s p =>
    let o := fusedMac p
    s.css (portBlk p + 2) [lanes4 (o.getD 0 0) (o.getD 1 0) (o.getD 2 0) (o.getD 3 0), lanes4 (o.getD 4 0) (o.getD 5 0) 0 0]) s

/-- Every engine in service gets its control store and leaves reset at vector 0. -/
def releaseEngines (s : State) : State :=
  (List.range 144).foldl (fun s e => (loadCstore e s).modE e fun g => g.modRun fun r => { r with inReset := false }) s

/-- After a device failure a device of a pair takes the standby role, which the journal and the store follow (R537). -/
def standbyRole (s : State) : State :=
  if s.boot.wake = .failure ∧ (storeGet s 0o14 []).map (fun d => fld (d.getD 0 0) 0 1) = some 1 then takeRole 2 s else s

/-- Welana restores the configuration (R512, R570); staging windows that a wake from Sable has left hold abandoned images. -/
def restoreConfig (b : BootSet) (s : State) : State :=
  let s := (List.range 16).foldl (fun s i => releaseWin i s) (s.css (rTen 0 0) [place 0 1 1, 0, 0, 0, 0, 0, 0, 0])
  let r := chooseBank (setRole 0 s)
  let k := storeBank r.2
  let s := if r.1 then
      standbyRole (restOwners (jEvent 0o412 0 [mkW r.2.wel.bankInUse.toNat, mkW k.seq, mkW k.lastJ] (restAll r.2)))
    else firstBank (jEvent 0o412 0 [0, 0, 0] (bootstrapSession b.welana r.2))
  jEvent 0o414 0 [s.cg rDEVID, place 0 11 s.wel.verMantle ||| place 12 23 s.wel.verWelana ||| place 24 35 s.wel.verVendor] s

/-- A set has passed, its mantle and microcode in windows of the resident region and its Welana in the code area of MP0: what the last
lines of R567 do. -/
def bootPass (b : BootSet) (s : State) : State :=
  let s := [b.welana, b.mantle, b.vendor].foldl (fun s w => imageEffect w s) s
  let a := (resident s).1 + imgWords b.mantle.length + imgWords b.vendor.length
  let s := setCode 1 b.welana (residentCopy 2 a b.welana s)
  let s := portMacs (firstDescs b.mantle (loadBootSram b.mantle (welanaStart b s)))
  let s := restoreConfig b ((setPhase .running s).csf bootBlk 2 2 1)
  let s := releaseEngines { s with sys := { s.sys with serdesIdle := false } }
  restoreAdmission (restArm (s.csf rRUCTL 0 0 1))

/-- The mantle and the vendor microcode of slot i are copied into the resident region and locked there; the set as it stands in the
locked windows. -/
def copySet (i : Nat) (s : State) : BootSet × State :=
  let b := slotSet (slotAt s i)
  let a := (resident s).1
  let s := residentCopy 1 (a + imgWords b.mantle.length) b.vendor (residentCopy 0 a b.mantle s)
  ({ mantle := winImage s 0 b.mantle.length, welana := s.boot.code0, vendor := winImage s 1 b.vendor.length }, s)

/-- The candidates from the slot of the waiting start on: the first whose set passes. -/
def trySets : List Nat → State → State
  | [], s => noSlot s
  | i :: r, s =>
    let x := tryWelana i s
    if x.1 ≠ 0 then trySets r x.2
    else
      let y := copySet i x.2
      match setFails y.2 y.1 with
      | some f => trySets r (slotFailed (bstatFail f y.2))
      | none => bootPass y.1 y.2

/-- Groups of check lines by CAP (R57). -/
def groupsOf (cap : Nat) : Nat := [0, 29826161, 59652323, 119304647, 238609294].getD cap 0

/-- MEMORY_INIT_COMPLETE (R54, R65): the population found; any but the four of R54 stops the start. A start that waits goes
on. -/
def execMemoryInitComplete (cap : Nat) (s : State) : Host.Outcome State Fault Refusal :=
  if 8 ≤ cap then .fault .noSuchUnit
  else .next (
    if !(s.boot.phase = .waitMem || s.boot.phase = .recovery) || s.cf rMEMCFG 0 2 ≠ 0 then s
    else if cap = 0 ∨ 4 < cap then setPhase .halted (bstat 2 s)
    else
      let s := (s.cs rMEMCFG (place 0 2 cap ||| place 5 35 (8 * groupsOf cap)))
      let s := { s with sys := { s.sys with memResetN := true } }
      if s.boot.phase = .waitMem then
        let cur := s.cf bootBlk 3 3
        trySets ((slotOrder s).dropWhile fun i => i ≠ cur) s
      else s)

end Sys2Proof.Machine
end

