-- ==== Sys2Proof/Machine/Loader.lean ====
section
/-! DEFINITION. The recovery loader (R576 to R578). The last datagram that it sent stands in the state.
The choices in it: log entries 52 and 105. -/

namespace Sys2Proof.Machine

/-- A datagram of the loader: OP, OFFSET, LEN, data (R577). -/
def recDatagram (op off : Nat) (data : List Octet) (s : State) : State :=
  s.modBoot fun b =>
    { b with recOut := some (op, [BitVec.ofNat 8 op, 0, 0, 0] ++ beOctets 4 off ++ beOctets 2 data.length ++ [0, 0] ++ data) }

/-- RECOVERY_ANNOUNCE: DEVID, SERIAL and BSTAT every second. -/
def execRecoveryAnnounce (s : State) : Host.Outcome State Fault Refusal :=
  .next (if !inRecovery s then s
    else
      let ws := [s.cg rDEVID, hiW otpSerial, loW otpSerial, s.cg (bootBlk + 1)]
      let s := bringTo (s.boot.recAnn + secU) s
      recDatagram 1 0 (packWords ws) (s.modBoot fun b => { b with recAnn := s.net.devTime }))

/-- One pass over the data taken: how far the octets reach without a gap, from n on. -/
def recStretch (ds : List (Nat × List Octet)) (n : Nat) : Nat :=
  ds.foldl (fun n d => if d.1 ≤ n then max n (d.1 + d.2.length) else n) n

/-- The count of contiguous octets received. -/
def recCount (ds : List (Nat × List Octet)) : Nat := ds.foldl (fun n _ => recStretch ds n) 0

/-- The octets from a to a + n of what was received; a later datagram stands. -/
def recOctetsAt (ds : List (Nat × List Octet)) (a n : Nat) : List Octet :=
  (List.range n).map fun i =>
    match ds.reverse.find? fun d => decide (d.1 ≤ a + i ∧ a + i < d.1 + d.2.length) with
    | some d => d.2.getD (a + i - d.1) 0
    | none => 0

/-- RECOVERY_DATA: from the one sender, or the first after 60 s of silence. -/
def execRecoveryData (sender off : Nat) (octets : List Octet) (s : State) : Host.Outcome State Fault Refusal :=
  .next (
    let mine := match s.boot.recSender with
      | some x => x = sender
      | none => true
    if !inRecovery s || !mine || octets.isEmpty || decide (1024 < octets.length) || decide (8388608 < off + octets.length) then s
    else
      let old := if s.boot.recSender = some sender then s.boot.recData else []
      let ds := old ++ [(off, octets)]
      let s := s.modBoot fun b => { b with recSender := some sender, recData := ds, recLast := s.net.devTime }
      recDatagram 3 (recCount ds) [] s)

/-- RECOVERY_SENDER_TIMEOUT: 60 s without DATA. -/
def execRecoverySenderTimeout (s : State) : Host.Outcome State Fault Refusal :=
  .next (if !inRecovery s || s.boot.recSender.isNone then s
    else (bringTo (s.boot.recLast + 60 * secU) s).modBoot fun b => { b with recSender := none })

/-- The result of INSTALL: the set to program, or the code of RESULT. -/
def installCheck (s : State) (len : Nat) : Sum Nat BootSet :=
  let o := recOctetsAt s.boot.recData 0 len
  let b := slotSet o
  if recCount s.boot.recData < len then .inl 8
  else if !slotGood o then .inl 1
  else
    let f := verifyImage s b.welana 1
    if f ≠ 0 then .inl f
    else match setFails s b with
      | some 0 => .inl 1
      | some f => .inl f
      | none => .inr b

/-- RECOVERY_INSTALL (R578): the slot image received goes into a locked window of DRAM, which must be there, and is verified; the slot
with the smaller SSEQ is programmed, slot 1 when the values are equal, with SSEQ one above the larger. -/
def execRecoveryInstall (sender len : Nat) (s : State) : Host.Outcome State Fault Refusal :=
  .next (
    if !inRecovery s || s.boot.recSender ≠ some sender || s.cf rMEMCFG 0 2 = 0 then s
    else
      let o := recOctetsAt s.boot.recData 0 len
      let t := bootLock 0 0 (imgWords len) (cohOctets 0 o (s.css (rLKW 0) [0, 0, 0]))
      match installCheck s len with
      | .inl f => recDatagram 5 0 [BitVec.ofNat 8 f] (t.css (rLKW 0) [0, 0, 0])
      | .inr b =>
        let q0 := slotSeq (slotAt s 0)
        let q1 := slotSeq (slotAt s 1)
        let i := if q0 < q1 then 0 else 1
        recDatagram 5 0 [0] (flashWrite .bootSequencer (.slot i) (fun s =>
          s.modBoot fun x => { x with slots := tset [] x.slots i (slotOctets (1 + max q0 q1) b), recReset := true }) t))

/-- RECOVERY_LOADER_RESET: 10 ms after RESULT. -/
def execRecoveryLoaderReset (s : State) : Host.Outcome State Fault Refusal :=
  .next (if s.boot.phase = .recovery && s.boot.recReset then deviceReset .reset s else s)

end Sys2Proof.Machine
end

