-- ==== Sys2Proof/Machine/Power.lean ====
section
/-! DEFINITION. Power states (R579, R580, R588, R608 to R616), the junction temperature (R618, R643, R644), the reference
inputs (R622, R623) and the near-store scrub (R233). -/

namespace Sys2Proof.Machine

/-! ### The near-store scrub -/

/-- NEAR_STORE_SCRUB (R233): an uncorrectable word is found. -/
def execNearStoreScrub (e addr : Nat) (s : State) : Host.Outcome State Fault Refusal :=
  onEngine e (decide (addr < 32768))
    (if !(s.e e).run.inService then s
     else mcause e 1 (s.modE e fun g => g.modMem fun m =>
       { m with nbad := if m.nbad.contains addr then m.nbad else m.nbad ++ [addr] }))

/-! ### Temperature (R618, R644) -/

/-- MCAUSE.THERM, and the lower operating point where admission passes; else the event is journaled (log entry 41). -/
def thermal (s : State) : State :=
  let s := mcauseFirst 5 (s.modWel fun w => { w with thermArmed := false })
  let opt := s.cf rPWRCTL 2 3
  if !welUp s then s
  else if opt < 2 && (admission s [] (armedAll s)).isNone then welW rPWRCTL (setFld (s.cg rPWRCTL) 2 3 (opt + 1)) s
  else jEvent 0o163 0 [mkW opt, s.cg rTJ] s

/-- TJ_UPDATE: every 1 ms. Above 115 °C at two updates in a row is a device failure. -/
def execTjUpdate (temp : Word) (s : State) : Host.Outcome State Fault Refusal :=
  .next (
    if s.sys.porHeld then s
    else
      let t := sgn temp
      let s := (s.cs rTJ temp).modWel fun w => { w with hotCount := if 1840 < t then w.hotCount + 1 else 0 }
      if 2 ≤ s.wel.hotCount then failDevice s
      else if t < 1600 then s.modWel fun w => { w with thermArmed := true }
      else if 1648 < t ∧ s.wel.thermArmed then thermal s
      else s)

/-! ### Reference inputs -/

/-- REF_INPUT_LOST (R622): the input in use; within 1 µs the root takes the other, or holds. -/
def execRefInputLost (inB : Bool) (s : State) : Host.Outcome State Fault Refusal :=
  .next (
    let i := inB.toNat
    if s.sys.porHeld || s.cb rREFSTAT 3 || s.cf rREFSTAT 0 0 ≠ i then s
    else refDrop i (fltRec 5 i 0o14 (bringTo (s.net.devTime + usU) s)))

/-- STANDBY_REFERENCE_INPUT_LOST (R621, R513): the input that is not in use. -/
def execStandbyReferenceInputLost (inB : Bool) (s : State) : Host.Outcome State Fault Refusal :=
  .next (
    let i := inB.toNat
    if s.sys.porHeld || s.cb rREFSTAT 3 || s.cf rREFSTAT 0 0 = i || !refOk s i then s else fltRec 5 i 0o14 (s.csf rREFSTAT (1 + i) (1 + i) 0))

/-- REF_INPUT_USABLE (R623): an input that no command has retired is within tolerance; in hold it is taken at once. -/
def execRefInputUsable (inB : Bool) (s : State) : Host.Outcome State Fault Refusal :=
  .next (
    let i := inB.toNat
    if s.sys.porHeld || s.sys.refRetired.contains i then s else refBack i s)

/-- REF_HOLD_TIMEOUT (R623): hold for 100 ms. -/
def execRefHoldTimeout (s : State) : Host.Outcome State Fault Refusal :=
  .next (if s.cb rREFSTAT 3 then failDevice s else s)

/-! ### Pearl (R610) -/

/-- PEARL_EXIT: an IPEND bit is 1 or a halt is requested; the wait ends where WORK is 1. -/
def execPearlExit (e : Nat) (s : State) : Host.Outcome State Fault Refusal :=
  onEngine e true
    (let g := s.e e
     if !g.run.pearl || s.sys.slate.contains (e / 12) || (s.cg (rIPEND e) = 0 && g.run.haltReq.isNone) then s
     else s.modE e fun g => g.modRun fun r => { r with pearl := false, idleWait := r.idleWait && !s.cb (rIPEND e) 2 })

/-! ### Known events (R609) -/

/-- The context's masks let it run in cluster c. -/
def runsIn (s : State) (k c : Nat) : Bool := (List.range 12).any fun i => admits (ctxWords s k) (12 * c + i)

/-- The boundaries to come of the contexts that satisfy p: those staged, and the next of each armed one. -/
def boundaries (s : State) (p : Nat → Bool) : List Nat :=
  ((s.rel.staged.filter fun x => p x.ctx).map Entry.rel)
    ++ ((ctxList s).filter fun k => decide (2 ≤ ctxState s k) && !ctxDis s k && p k).map fun k => boundary (ctxWords s k) (ctxNext s k)

def minOf : List Nat → Option Nat
  | [] => none
  | a :: r => some (r.foldl min a)

def clusterEvent (s : State) (c : Nat) : Option Nat := minOf (boundaries s fun k => runsIn s k c)

/-- MARGIN in the units of device time. -/
def margin (s : State) : Nat := s.cf rPWRCTL 4 17 * usU

/-- At least `need` lies before the event; none is far enough. -/
def gapOk (s : State) (ev : Option Nat) (need : Nat) : Bool :=
  match ev with
  | some t => decide (s.net.devTime + need ≤ t)
  | none => true

/-- EMUL, 1 while a debugger is attached or an emulated state lasts (R584, R585, R588; log entry 87), and CSL. -/
def slateSync (s : State) : State :=
  let s := (List.range 12).foldl (fun s c => s.csf rPWRSTAT (4 + c) (4 + c) (s.sys.slate.contains c).toNat) s
  s.csf rPWRSTAT 16 16 (s.sys.attached || !s.sys.slateEmul.isEmpty || s.sys.sableEmul).toNat

/-! ### Slate (R611 to R613) -/

/-- The engines of cluster c, and those of them in service. -/
def clusterAll (c : Nat) : List Nat := (List.range 12).map (12 * c + ·)
def clusterIn (s : State) (c : Nat) : List Nat := (clusterAll c).filter fun e => (s.e e).run.inService

/-- The conditions for Slate: DEEP, every engine in Pearl with nothing under way, no activation that could run there, and the
gap. -/
def slateOk (s : State) (c : Nat) : Bool :=
  decide (2 ≤ s.cf rPWRCTL 0 1) && !s.sys.slate.contains c && cluIn s c && !(clusterIn s c).isEmpty
    && (clusterIn s c).all (fun e =>
      let g := s.e e
      g.run.pearl && !g.run.inReset && g.run.haltReq.isNone && g.mem.sb.isEmpty && g.run.stall.isNone && s.cg (rIPEND e) = 0)
    && !(liveCtxs s ++ s.rel.waiting.map Entry.ctx).any (fun k => runsIn s k c)
    && gapOk s (clusterEvent s c) (50 * usU + margin s)

/-- Caches, descriptor cache, line buffer and predictor are lost. -/
def Engine.losesCaches (g : Engine) : Engine := g.modMem fun m => { m with l1d := [], l1i := [], lbuf := [], dcache := [], pred := [] }

/-- Near-store offsets below a limit hold zero with tag 0. -/
def Engine.losesNear (limit : Nat) (g : Engine) : Engine :=
  g.modMem fun m =>
    { m with near := m.near.filter (fun p => limit ≤ p.1), ntag := m.ntag.filter (fun p => limit ≤ 8 * p.1),
             nbad := m.nbad.filter (fun a => limit ≤ a) }

/-- SLATE_ENTRY (R612): lines in M go home, and every other line is dropped. -/
def execSlateEntry (c : Nat) (s : State) : Host.Outcome State Fault Refusal :=
  if 12 ≤ c then .fault .noSuchUnit
  else .next (
    if !slateOk s c then s
    else
      let es := clusterIn s c
      let mine := es.flatMap fun e => ((s.e e).mem.l1d.filter fun x => x.st = .m).map L1Line.line
      let s := mine.foldl (fun s l => recallLine l s) s
      let s := (clusterAll c).foldl (fun s e => s.modE e Engine.losesCaches) s
      let emul := if s.sys.attached then s.sys.slateEmul ++ [c] else s.sys.slateEmul
      slateSync { s with sys := { s.sys with slate := s.sys.slate ++ [c], slateEmul := emul } })

/-- The near stores of a cluster hold zero below the limit, and its engines resume the idle loop after its wait. -/
def slateOut (limit c : Nat) (s : State) : State :=
  let s := (clusterAll c).foldl (fun s e => s.modE e (Engine.losesNear limit)) s
  let s := (clusterIn s c).foldl (fun s e => s.modE e fun g => g.modRun fun r => { r with pearl := false, idleWait := false }) s
  let drop := fun (l : List Nat) => l.filter (· ≠ c)
  let x := { s.sys with slate := drop s.sys.slate, slateWake := drop s.sys.slateWake, slateEmul := drop s.sys.slateEmul }
  slateSync { s with sys := x }

/-- A cause wakes the cluster at once: an IPEND bit (an entry in a deque, IREQ, a machine check), a halt request, a change of
PWRCTL. -/
def slateCause (s : State) (c : Nat) : Bool :=
  s.sys.slateWake.contains c || (clusterIn s c).any fun e => s.cg (rIPEND e) ≠ 0 || (s.e e).run.haltReq.isSome

/-- SLATE_EXIT (R613): a wake cause, or the known event less the exit of 30 µs and MARGIN. -/
def execSlateExit (c : Nat) (s : State) : Host.Outcome State Fault Refusal :=
  if 12 ≤ c then .fault .noSuchUnit
  else .next (
    if !s.sys.slate.contains c || s.sys.sable then s
    else if slateCause s c then slateOut 0o76000 c (bringTo (s.net.devTime + 30 * usU) s)
    else match clusterEvent s c with
      | some t => slateOut 0o76000 c (bringTo (max (s.net.devTime + 30 * usU) (t - margin s)) s)
      | none => s)

/-! ### Sable (R579, R580, R614 to R616) -/

/-- The locked windows: index, base, words. -/
def lockedWins (s : State) : List (Nat × Nat × Nat) :=
  ((List.range 16).filter fun i => s.cb (rLKW i) 0).map fun i => (i, s.cf (rLKW i + 1) 1 35, (s.cg (rLKW i + 2)).toNat)

/-- The words of a window. -/
def winData (s : State) (b n : Nat) : List Word :=
  (List.range n).map fun i =>
    let a := b + i
    if inBootSram a then tget 0 s.mem.bootSram (a - (ctlBase + bootSramBlk)) else (peekLine s (a / 8)).1.getD (a % 8) 0

def winDigest (s : State) (b n : Nat) : List Word := lanesOf (sha384 (octetsOf (winData s b n)))

/-- Entry and exit in the units of device time: the windows' octets at 12 and 3 octets a nanosecond. -/
def sableTimes (s : State) : Nat × Nat :=
  let zs := (lockedWins s).map fun p => 4 * p.2.2
  let total := zs.sum
  (2000 * usU + total * nsU / 12, 630 * usU + total * nsU / 12 + natMax zs * nsU / 3)

/-- Welana's next timer: the daily rewrite of the store (R511), or while a grant is in effect the second of its check. -/
def welTimer (s : State) : Nat :=
  let d := s.wel.rebaseAt + 24 * 3600 * secU
  if s.wel.grants.any (fun p => p.2.isSome) then min d ((nowSec s + 1) * secU) else d

/-- The next known event of the device. -/
def deviceEvent (s : State) : Nat :=
  let starts := (boundaries s fun _ => true).map fun t => t - 2 * tickU
  let gates := allGates.filterMap fun p => gateChg s p.1 p.2
  (starts ++ gates).foldl min (welTimer s)

/-- A valid session with a heartbeat. -/
def heartbeatOn (s : State) : Bool :=
  s.ctl.any fun p => decide (rSes 0 0 ≤ p.1 ∧ p.1 < rSes 16384 0 ∧ (p.1 - rSes 0 0) % 12 = 2) && fld p.2 16 25 ≠ 0
    && sesValid s ((p.1 - rSes 0 0) / 12)

/-- The conditions for Sable. -/
def sableOk (s : State) : Bool :=
  welUp s && s.cf rPWRCTL 0 1 = 3 && !s.sys.sable && (List.range 12).all (fun c => !cluIn s c || (clusterIn s c).isEmpty || s.sys.slate.contains c)
    && pairRoleOf s = 0 && !s.cb rDSTOP 0 && !heartbeatOn s
    && !((ctxList s).any fun k => decide (2 ≤ ctxState s k) && frLen s k ≠ 0)
    && s.wel.queue.isEmpty && s.wel.ljobs.isEmpty && s.net.jobs.isEmpty && s.net.inq.isEmpty
    && (List.range 4).all (fun p => (s.port p).slowQ.isEmpty)
    && (List.range 192).all (fun i => !armed s (i / 16) (i % 16) false && !armed s (i / 16) (i % 16) true)
    && (List.range 12).all (fun c => (s.mover c).cur.isNone) && !anyLive s && s.rel.staged.isEmpty && s.home.txns.isEmpty && s.home.net.isEmpty
    && (let t := sableTimes s
        decide (s.net.devTime + t.1 + t.2 + margin s ≤ deviceEvent s))

/-- The wake record in the retained SRAM. -/
def wakeRecord (s : State) : State :=
  let ws := lockedWins s
  let s := s.cs sramBlk (bitAt 0 true ||| place 1 5 ws.length)
  (List.zipWith Prod.mk (List.range 16) ws).foldl (fun s p =>
    s.css (sramBlk + 1 + 15 * p.1) ([mkW p.2.2.1, mkW p.2.2.2] ++ winDigest s p.2.2.1 p.2.2.2 ++ [0])) s

/-- Every committed line and check word is in DRAM. -/
def flushAll (s : State) : State :=
  let s := s.home.lines.foldl (fun s p => match p.2 with
    | some x => if x.st = .lost then s else dropEntry p.1 s
    | none => s) s
  s.modMem fun m => { m with chk := flushChecks m, ckc := [] }

/-- SABLE_ENTRY (R615). The saved tables stand in the state as they are (log entry 42); Welana, the ports and the engines stand
still. -/
def execSableEntry (s : State) : Host.Outcome State Fault Refusal :=
  .next (
    if !sableOk s then s
    else
      let t := sableTimes s
      let ev := deviceEvent s
      let s := flushAll s
      let emul := s.sys.attached
      let s := if emul then s else wakeRecord s
      let w := ev - t.2 - margin s
      let s := (s.cs rSBWAKE (timeHi w)).cs (rSBWAKE + 1) (timeLo w)
      let s := (List.range 4).foldl (fun s p => linkFall p false s) s
      let s := bringTo (s.net.devTime + t.1) s
      let s := s.modWel fun w => { w with mpUp := [] }
      { s with sys := { s.sys with sable := true, sableEmul := emul, heldInReset := true, serdesIdle := true } })

/-- The windows of the wake record hash as recorded. -/
def wakeMatches (s : State) : Bool :=
  (List.range (s.cf sramBlk 1 5)).all fun i =>
    let o := sramBlk + 1 + 15 * i
    decide (winDigest s (s.cg o).toNat (s.cg (o + 1)).toNat = s.cgs (o + 2) 12)

/-- What a wake, real or emulated, leaves: near stores zero, caches empty, Welana running, the ports as before; a grant that
ended meanwhile ends before the first release. -/
def sableOut (s : State) : State :=
  let s := endPast s
  let s := (List.range 12).foldl (fun s c => slateOut 0o100000 c s) s
  let s := (List.range 144).foldl (fun s e => s.modE e Engine.losesCaches) s
  let act := s.cf rMPSTAT 0 0
  let s := s.modWel fun w => { w with mpUp := tset false (tset false [] act true) (1 - act) (s.cf rMPSTAT 1 2 = 2) }
  slateSync { s with sys := { s.sys with sable := false, sableEmul := false, heldInReset := false, serdesIdle := false } }

/-- The debug block's part of the debug reset (R589): its registers and the context debug table take their reset values, the TAP
controller is reset, and attachment ends. -/
def debugBlockReset (s : State) : State :=
  let s := { s with ctl := s.ctl.filter fun p => !decide (dbgBlk ≤ p.1 ∧ p.1 < bootBlk) }
  slateSync ({ s with sys := { s.sys with tap := .bypass, attached := false, acc := none, accData := 0, accResult := 0 } }.csf
    bootBlk 24 24 0)

/-- The engines of a real wake leave device reset at vector 0, and powering the debug domain applies the debug reset (R589). -/
def wakeEngines (s : State) : State :=
  let s := debugBlockReset s
  (List.range 144).foldl (fun s e =>
    if (s.e e).run.inService then
      (loadCstore e s).modE e fun g =>
        let h := g.resetScope
        { h with regs := .reset, eff := .reset }
    else s) s

/-- SABLE_WAKE (R580, R616): at SBWAKE. Without a match of every digest, or without a valid record, a cold start runs. -/
def execSableWake (s : State) : Host.Outcome State Fault Refusal :=
  .next (
    if !s.sys.sable then s
    else
      let x := sableTimes s
      let s := bringTo (ofTime (s.cg rSBWAKE) (s.cg (rSBWAKE + 1)) + x.2) s
      let s := s.csf rPWRSTAT 17 19 1
      if s.sys.sableEmul then sableOut s
      else
        let good := s.cb sramBlk 0
        let s := s.csf sramBlk 0 0 0
        if good && wakeMatches s then
          let s := wakeEngines (sableOut s)
          (s.csf bootBlk 4 4 1).modBoot fun b => { b with wake := .sable }
        else
          let t := s.net.devTime
          bringTo t (bstat (if good then 5 else 0) (deviceClear .sable true (keepRefused s))))

end Sys2Proof.Machine
end

