-- ==== Sys2Proof/Machine/Debug.lean ====
section
/-! DEFINITION. The TAP, attachment and the debug bus master (R584, R586 to R594, R602). -/

namespace Sys2Proof.Machine

/-! ### The TAP (R586 to R589) -/

/-- The debug domain is powered: not in real Sable, nor while PWR_OK is low. -/
def tapOn (s : State) : Bool := !(s.sys.sable && !s.sys.sableEmul) && !s.sys.porHeld

/-- An instruction is selected; leaving EXTEST releases the domains as a device reset. -/
def selectTap (t : TapInstr) (s : State) : State :=
  if !tapOn s then s
  else
    let s := if s.sys.tap = .extest && t ≠ .extest then deviceReset .reset s else s
    { s with sys := { s.sys with tap := t } }

/-- SAMPLE. -/
def execSample (s : State) : Host.Outcome State Fault Refusal := .next (selectTap .sample s)

/-- PRELOAD. -/
def execPreload (s : State) : Host.Outcome State Fault Refusal := .next (selectTap .preload s)

/-- BYPASS. -/
def execBypass (s : State) : Host.Outcome State Fault Refusal := .next (selectTap .bypass s)

/-- EXTEST: every domain but the always-on and debug domains is held in device reset. -/
def execExtest (s : State) : Host.Outcome State Fault Refusal :=
  .next (
    if !tapOn s || s.sys.tap = .extest then s
    else
      let r := deviceReset .reset s
      { r with sys := { r.sys with tap := .extest, heldInReset := true } })

/-- LEAVE_EXTEST: another instruction is selected, BYPASS in this row. -/
def execLeaveExtest (s : State) : Host.Outcome State Fault Refusal :=
  .next (if s.sys.tap = .extest then selectTap .bypass s else s)

/-- DEBUG_ATTACH (R588): Update-IR loads DBGACC. -/
def execDebugAttach (s : State) : Host.Outcome State Fault Refusal :=
  .next (if !tapOn s then s
    else
      let s := selectTap .dbgacc s
      slateSync (({ s with sys := { s.sys with attached := true } }).csf bootBlk 24 24 1))

/-- The debug reset scope (R589): halted engines go on, and the registers of the debug domain take their reset values. -/
def debugScope (s : State) : State :=
  let s := resumeDevice s
  debugBlockReset ((List.range 144).foldl (fun s e =>
    (releaseEngine e none s).modE e fun g =>
      { (g.modRegs fun r => { r with dbg := Regs.reset.dbg, dstat := Regs.reset.dstat }).modRun
          (fun r => { r with haltReq := none, bpSkip := false, stepMode := .run }) with eff := { g.eff with dbg := Eff.reset.dbg } }) s)

/-- DEBUG_RESET: TRST_N low, or Test-Logic-Reset. -/
def execDebugReset (s : State) : Host.Outcome State Fault Refusal :=
  .next (if !tapOn s then s else debugScope (selectTap .bypass s))

/-! ### The reach of the debug bus master (R584, R593) -/

/-- The grants in effect. -/
def grantList (s : State) : List (Nat × GrantTok) := s.wel.grants.filterMap fun p => p.2.map fun k => (p.1, k)

/-- The words reached in SEALED: LCSTAT, BSTAT, DEVID, FCMD, TOKBUF and the debug mailbox. -/
def sealedReach (a : Nat) : Bool :=
  let o := a - ctlBase
  decide (ctlBase ≤ a) && (o = bootBlk || o = bootBlk + 1 || o = bootBlk + 2 || o = rDEVID
    || decide (bootBlk + 0o4000 ≤ o ∧ o < bootBlk + 0o10000) || decide (rDbgMbx ≤ o ∧ o < rDbgMbx + 0o4000))

/-- A present data-type descriptor of tenant t covers word a. -/
def dataWord (s : State) (t a : Nat) : Bool :=
  (allDescs s).any fun d => d.t = t && d.owner = t && d.typ = tyData && decide (d.base ≤ a ∧ a < d.base + d.size)

/-- The entries of the context debug table that a grant with HALT holds, and DHCMD and DHST of the engines halted under it. -/
def haltWords (s : State) (g : Nat) (k : GrantTok) (write : Bool) (o : Nat) (w : Word) : Bool :=
  let b := dbgBlk + 0o1000
  if b ≤ o ∧ o < b + 64 then
    let i := (o - b) / 4
    let held := s.cf (b + 4 * i) 18 25 = g
    if (o - b) % 4 = 0 && write then
      (held || !s.cb (b + 4 * i) 0) && fld w 18 25 = g && ctxTenant s (fld w 4 17) = k.tenant
    else held
  else if dbgBlk + 0o100 ≤ o ∧ o < dbgBlk + 0o100 + 288 then
    let e := (o - dbgBlk - 0o100) / 2
    write || (s.e e).run.haltGrant = g
  else false

/-- A physical word is reached. -/
def physReach (s : State) (write : Bool) (a : Nat) (w : Word) : Bool :=
  wholeReach s || sealedReach a
    || (lifeState s = 2 && (grantList s).any fun p =>
      (grantRight p.2 (if write then 1 else 0) && decide (a < dramWords s) && dataWord s p.2.tenant a)
        || (grantRight p.2 2 && decide (ctlBase ≤ a) && haltWords s p.1 p.2 write (a - ctlBase) w))

/-- A near-store word of engine e is reached. -/
def nearReach (s : State) (write : Bool) (e a : Nat) : Bool :=
  wholeReach s
    || (lifeState s = 2 && !write && (grantList s).any fun p =>
      grantRight p.2 0 && (s.e e).run.haltGrant = p.1 && tget 0 (s.e e).mem.ntag (a / 8) = p.2.tenant)

/-- A register of engine e is reached. -/
def regReach (s : State) (e n : Nat) : Bool :=
  wholeReach s
    || (lifeState s = 2 && (grantList s).any fun p =>
      (s.e e).run.haltGrant = p.1
        && ((grantRight p.2 2 && isDbgReg n) || (grantRight p.2 3 && decide (n ≤ 0o22))))

/-! ### Accesses (R590 to R592) -/

/-- The lifecycle state or some grant lets the master reach engines of this kind at all, once they are halted (R593). -/
def engineReach (s : State) (rights : List Nat) : Bool :=
  wholeReach s || (lifeState s = 2 && (grantList s).any fun p => rights.any fun r => grantRight p.2 r)

/-- The RESULT that refuses an access at its start; 0 where it goes on. Which refusal comes first: log entry 87. -/
def accRefusal (s : State) (x : DbgAcc) : Nat :=
  match x.space with
  | 0 => if physReach s x.write x.addr x.data then 0 else 2
  | 1 =>
    if 144 ≤ x.eng ∨ 32768 ≤ x.addr then 3
    else if !engineReach s [0] || (x.write && !wholeReach s) then 2
    else if !(s.e x.eng).run.halted && !(wholeReach s && !x.write) then 4
    else if nearReach s x.write x.eng x.addr then 0 else 2
  | 2 =>
    if 144 ≤ x.eng then 3
    else if !engineReach s [2, 3] then 2
    else if !(s.e x.eng).run.halted then 4
    else if regReach s x.eng x.addr then 0 else 2
  | _ => 2

/-- A word of DRAM: its access goes to the home slice. -/
def accDram (s : State) (x : DbgAcc) : Bool := x.space = 0 && decide (x.addr < dramWords s)

/-- An access starts: refused at once, or under way; one of DRAM sends its message. -/
def accStart (x : DbgAcc) (s : State) : State :=
  if !tapOn s || s.sys.tap ≠ .dbgacc || s.sys.acc.isSome then s
  else
    let r := accRefusal s x
    if r ≠ 0 then accEnd r 0 s
    else if accDram s x && x.write && inProgram s x.addr then accEnd 3 0 s
    else
      let s := { s with sys := { s.sys with acc := some x, accAt := s.net.devTime } }
      if !accDram s x then s
      else
        let l := x.addr / 8
        let i := x.addr % 8
        request .debug l 0 (if x.write then .wrm (15 * 16 ^ i) ((List.replicate 8 0).set i x.data) else .rdo) s

/-- Operands of DBGACC (R590). -/
def accFields (space eng addr : Nat) : Bool := decide (space < 4 ∧ eng < 256 ∧ addr < 2 ^ 35)

/-- DEBUG_READ_WORD. -/
def execDebugReadWord (space eng addr : Nat) (s : State) : Host.Outcome State Fault Refusal :=
  if !accFields space eng addr then .fault .noSuchUnit
  else .next (accStart { write := false, space := space, eng := eng, addr := addr, data := 0 } s)

/-- DEBUG_WRITE_WORD. -/
def execDebugWriteWord (space eng addr : Nat) (w : Word) (s : State) : Host.Outcome State Fault Refusal :=
  if !accFields space eng addr then .fault .noSuchUnit
  else .next (accStart { write := true, space := space, eng := eng, addr := addr, data := w } s)

/-- A register of a halted engine takes a value (R593, R594); in SERVICE, ST in the fields that U level writes. -/
def debugRegWrite (s : State) (n : Nat) (v : Word) (g : Engine) : Engine :=
  if n < 16 then g.modRegs fun r => { r with w := tset 0 r.w n v }
  else match n with
  | 0o20 => (g.modRegs fun r => { r with ph := v }).modPipe fun p => { p with accH := v }
  | 0o21 => (g.modRegs fun r => { r with pl := v }).modPipe fun p => { p with accL := v }
  | 0o22 =>
    let m := stWritable (if lifeState s = 2 then 0 else 2)
    g.modRegs fun r => { r with st := (r.st &&& ~~~ m) ||| (v &&& m) }
  | 0o67 => g.modRegs fun r => { r with dstat := setFld r.dstat 8 35 (fld v 8 35) }
  | _ => specialWrite n v g

/-- What an access outside DRAM does when it is answered. -/
def accPerform (x : DbgAcc) (s : State) : State :=
  match x.space with
  | 0 =>
    if x.addr < ctlBase then accEnd 3 0 s
    else if x.write then
      let r := cwWrite1 .debug 0 (x.addr - ctlBase) x.data s
      match r.1 with
      | some _ => accEnd 3 0 r.2
      | none => accEnd 0 x.data r.2
    else match (cwRead false (x.addr - ctlBase) false s).1 with
      | some (w :: _) => accEnd 0 w s
      | _ => accEnd 3 0 s
  | 1 =>
    if x.write then
      accEnd 0 x.data (s.modE x.eng fun g => g.modMem fun m =>
        { m with near := tset 0 m.near x.addr x.data, nbad := m.nbad.filter fun a => a ≠ x.addr })
    else if (s.e x.eng).mem.nbad.contains x.addr then accEnd 5 0 s
    else accEnd 0 (tget 0 (s.e x.eng).mem.near x.addr) s
  | _ =>
    if x.write then
      if mtrIllegal x.addr then accEnd 3 0 s else accEnd 0 x.data (s.modE x.eng (debugRegWrite s x.addr x.data))
    else match specialRead s (s.e x.eng) x.addr with
      | some w => accEnd 0 (if x.addr = 0o22 && !wholeReach s then w &&& stWritable 0 else w) s
      | none => accEnd 3 0 s

/-- DEBUG_ACCESS_DONE (R591): the access outside DRAM is answered, or an access has no answer within 64 µs. An access of DRAM is
answered by its reply. -/
def execDebugAccessDone (answered : Bool) (s : State) : Host.Outcome State Fault Refusal :=
  .next (match s.sys.acc with
    | none => s
    | some x =>
      if !answered then accEnd 3 0 (bringTo (s.sys.accAt + 64 * usU) s)
      else if accDram s x then s
      else accPerform x s)

end Sys2Proof.Machine
end

