-- ==== Sys2Proof/Machine/Dispatch.lean ====
section
/-! DEFINITION. One arm for each command: its meaning, or a refusal by name. -/

namespace Sys2Proof.Machine

def exec (i : Instr) (s : State) : Host.Outcome State Fault Refusal :=
  match i with
  | .nop e u => Sys2Proof.Machine.execNop e u s
  | .csync e u => Sys2Proof.Machine.execCsync e u s
  | .drain e u => Sys2Proof.Machine.execDrain e u s
  | .fenceL e u => Sys2Proof.Machine.execFenceL e u s
  | .fenceS e u => Sys2Proof.Machine.execFenceS e u s
  | .fenceLS e u => Sys2Proof.Machine.execFenceLS e u s
  | .retx e u => Sys2Proof.Machine.execRetx e u s
  | .brk e u => Sys2Proof.Machine.execBrk e u s
  | .commit e u => Sys2Proof.Machine.execCommit e u s
  | .yieldI e u => Sys2Proof.Machine.execYieldI e u s
  | .steal e u => Sys2Proof.Machine.execSteal e u s
  | .mov e a b => Sys2Proof.Machine.execMov e a b s
  | .add e a b => Sys2Proof.Machine.execAdd e a b s
  | .sub e a b => Sys2Proof.Machine.execSub e a b s
  | .adc e a b => Sys2Proof.Machine.execAdc e a b s
  | .sbc e a b => Sys2Proof.Machine.execSbc e a b s
  | .and e a b => Sys2Proof.Machine.execAnd e a b s
  | .or e a b => Sys2Proof.Machine.execOr e a b s
  | .xor e a b => Sys2Proof.Machine.execXor e a b s
  | .andn e a b => Sys2Proof.Machine.execAndn e a b s
  | .not e a b => Sys2Proof.Machine.execNot e a b s
  | .neg e a b => Sys2Proof.Machine.execNeg e a b s
  | .cmp e a b => Sys2Proof.Machine.execCmp e a b s
  | .tst e a b => Sys2Proof.Machine.execTst e a b s
  | .shl e a b => Sys2Proof.Machine.execShl e a b s
  | .shr e a b => Sys2Proof.Machine.execShr e a b s
  | .sar e a b => Sys2Proof.Machine.execSar e a b s
  | .rol e a b => Sys2Proof.Machine.execRol e a b s
  | .addS e a b => Sys2Proof.Machine.execAddS e a b s
  | .subS e a b => Sys2Proof.Machine.execSubS e a b s
  | .negS e a b => Sys2Proof.Machine.execNegS e a b s
  | .abs e a b => Sys2Proof.Machine.execAbs e a b s
  | .absS e a b => Sys2Proof.Machine.execAbsS e a b s
  | .min e a b => Sys2Proof.Machine.execMin e a b s
  | .max e a b => Sys2Proof.Machine.execMax e a b s
  | .minu e a b => Sys2Proof.Machine.execMinu e a b s
  | .maxu e a b => Sys2Proof.Machine.execMaxu e a b s
  | .pack e a b => Sys2Proof.Machine.execPack e a b s
  | .unpk e a b => Sys2Proof.Machine.execUnpk e a b s
  | .clz e a b => Sys2Proof.Machine.execClz e a b s
  | .rdt e a u => Sys2Proof.Machine.execRdt e a u s
  | .mul e a b => Sys2Proof.Machine.execMul e a b s
  | .mulu e a b => Sys2Proof.Machine.execMulu e a b s
  | .mac e a b => Sys2Proof.Machine.execMac e a b s
  | .macS e a b => Sys2Proof.Machine.execMacS e a b s
  | .div e a b => Sys2Proof.Machine.execDiv e a b s
  | .divu e a b => Sys2Proof.Machine.execDivu e a b s
  | .rem e a b => Sys2Proof.Machine.execRem e a b s
  | .remu e a b => Sys2Proof.Machine.execRemu e a b s
  | .fadd e a b => Sys2Proof.Machine.execFadd e a b s
  | .fsub e a b => Sys2Proof.Machine.execFsub e a b s
  | .fmul e a b => Sys2Proof.Machine.execFmul e a b s
  | .fcmp e a b => Sys2Proof.Machine.execFcmp e a b s
  | .fneg e a b => Sys2Proof.Machine.execFneg e a b s
  | .fabs e a b => Sys2Proof.Machine.execFabs e a b s
  | .fmin e a b => Sys2Proof.Machine.execFmin e a b s
  | .fmax e a b => Sys2Proof.Machine.execFmax e a b s
  | .flt e a b => Sys2Proof.Machine.execFlt e a b s
  | .fix e a b => Sys2Proof.Machine.execFix e a b s
  | .fdiv e a b => Sys2Proof.Machine.execFdiv e a b s
  | .fsqrt e a b => Sys2Proof.Machine.execFsqrt e a b s
  | .faddD e a b => Sys2Proof.Machine.execFaddD e a b s
  | .fsubD e a b => Sys2Proof.Machine.execFsubD e a b s
  | .fmulD e a b => Sys2Proof.Machine.execFmulD e a b s
  | .fcmpD e a b => Sys2Proof.Machine.execFcmpD e a b s
  | .fnegD e a b => Sys2Proof.Machine.execFnegD e a b s
  | .fabsD e a b => Sys2Proof.Machine.execFabsD e a b s
  | .fltD e a b => Sys2Proof.Machine.execFltD e a b s
  | .fixD e a b => Sys2Proof.Machine.execFixD e a b s
  | .fdivD e a b => Sys2Proof.Machine.execFdivD e a b s
  | .fsqrtD e a b => Sys2Proof.Machine.execFsqrtD e a b s
  | .fcvtDF e a b => Sys2Proof.Machine.execFcvtDF e a b s
  | .fcvtFD e a b => Sys2Proof.Machine.execFcvtFD e a b s
  | .jr e a u => Sys2Proof.Machine.execJr e a u s
  | .callr e a b => Sys2Proof.Machine.execCallr e a b s
  | .fjmp e a b => Sys2Proof.Machine.execFjmp e a b s
  | .fcall e a b => Sys2Proof.Machine.execFcall e a b s
  | .fret e a u => Sys2Proof.Machine.execFret e a u s
  | .segld e a b => Sys2Proof.Machine.execSegld e a b s
  | .seginv e a b => Sys2Proof.Machine.execSeginv e a b s
  | .cust e n a b => Sys2Proof.Machine.execCust e n a b s
  | .movq e a imm => Sys2Proof.Machine.execMovq e a imm s
  | .addq e a imm => Sys2Proof.Machine.execAddq e a imm s
  | .cmpq e a imm => Sys2Proof.Machine.execCmpq e a imm s
  | .shlq e a imm => Sys2Proof.Machine.execShlq e a imm s
  | .shrq e a imm => Sys2Proof.Machine.execShrq e a imm s
  | .sarq e a imm => Sys2Proof.Machine.execSarq e a imm s
  | .rolq e a imm => Sys2Proof.Machine.execRolq e a imm s
  | .extp e a imm => Sys2Proof.Machine.execExtp e a imm s
  | .rpt e a imm nxt => Sys2Proof.Machine.execRpt e a imm nxt s
  | .rptu e a imm nxt => Sys2Proof.Machine.execRptu e a imm nxt s
  | .mfr e a imm => Sys2Proof.Machine.execMfr e a imm s
  | .mtr e a imm => Sys2Proof.Machine.execMtr e a imm s
  | .svc e a imm => Sys2Proof.Machine.execSvc e a imm s
  | .mvc e a imm => Sys2Proof.Machine.execMvc e a imm s
  | .tstb e a imm => Sys2Proof.Machine.execTstb e a imm s
  | .ld e a b seg disp => Sys2Proof.Machine.execLd e a b seg disp s
  | .st e a b seg disp => Sys2Proof.Machine.execSt e a b seg disp s
  | .ldd e a b seg disp => Sys2Proof.Machine.execLdd e a b seg disp s
  | .std e a b seg disp => Sys2Proof.Machine.execStd e a b seg disp s
  | .ldr e a b seg disp => Sys2Proof.Machine.execLdr e a b seg disp s
  | .ldrD e a b seg disp => Sys2Proof.Machine.execLdrD e a b seg disp s
  | .stc e a b seg disp => Sys2Proof.Machine.execStc e a b seg disp s
  | .stcD e a b seg disp => Sys2Proof.Machine.execStcD e a b seg disp s
  | .ldi e a u imm => Sys2Proof.Machine.execLdi e a u imm s
  | .lui e a u imm => Sys2Proof.Machine.execLui e a u imm s
  | .addi e a b u imm => Sys2Proof.Machine.execAddi e a b u imm s
  | .addiS e a b u imm => Sys2Proof.Machine.execAddiS e a b u imm s
  | .andi e a b u imm => Sys2Proof.Machine.execAndi e a b u imm s
  | .ori e a b u imm => Sys2Proof.Machine.execOri e a b u imm s
  | .xori e a b u imm => Sys2Proof.Machine.execXori e a b u imm s
  | .cmpi e a u imm => Sys2Proof.Machine.execCmpi e a u imm s
  | .b e cond u disp => Sys2Proof.Machine.execB e cond u disp s
  | .call e a u disp => Sys2Proof.Machine.execCall e a u disp s
  | .dbnz e a u disp => Sys2Proof.Machine.execDbnz e a u disp s
  | .unassignedOpcode e long => Sys2Proof.Machine.execUnassignedOpcode e long s
  | .longOpLanding e => Sys2Proof.Machine.execLongOpLanding e s
  | .stcDecision e stall => Sys2Proof.Machine.execStcDecision e stall s
  | .exceptionEntry e => Sys2Proof.Machine.execExceptionEntry e s
  | .budgetExhausted e => Sys2Proof.Machine.execBudgetExhausted e s
  | .deadlineReached k => Sys2Proof.Machine.execDeadlineReached k s
  | .reservationExpiry e => Sys2Proof.Machine.execReservationExpiry e s
  | .machineCheckHoldTimeout e => Sys2Proof.Machine.execMachineCheckHoldTimeout e s
  | .ireqWrite ag e w => Sys2Proof.Machine.execIreqWrite ag e w s
  | .storeDrain e idx => Sys2Proof.Machine.execStoreDrain e idx s
  | .storeAcknowledged e idx => Sys2Proof.Machine.execStoreAcknowledged e idx s
  | .storeNoAnswer e idx => Sys2Proof.Machine.execStoreNoAnswer e idx s
  | .commitBegins e stall => Sys2Proof.Machine.execCommitBegins e stall s
  | .commitPoint e stall => Sys2Proof.Machine.execCommitPoint e stall s
  | .stealSearch e stall => Sys2Proof.Machine.execStealSearch e stall s
  | .resumedEntryClaimable k => Sys2Proof.Machine.execResumedEntryClaimable k s
  | .workWaitTimeout e => Sys2Proof.Machine.execWorkWaitTimeout e s
  | .microwordRewrite e stall => Sys2Proof.Machine.execMicrowordRewrite e stall s
  | .cstoreScrub e addr => Sys2Proof.Machine.execCstoreScrub e addr s
  | .collarMismatch e => Sys2Proof.Machine.execCollarMismatch e s
  | .engineSilent e => Sys2Proof.Machine.execEngineSilent e s
  | .engineFailureRecovery e => Sys2Proof.Machine.execEngineFailureRecovery e s
  | .clusterDomainLost c => Sys2Proof.Machine.execClusterDomainLost c s
  | .engineAutoRestore e pass => Sys2Proof.Machine.execEngineAutoRestore e pass s
  | .lostLineRewrite line ws => Sys2Proof.Machine.execLostLineRewrite line ws s
  | .descriptorLineRewrite line => Sys2Proof.Machine.execDescriptorLineRewrite line s
  | .admissionRerun => Sys2Proof.Machine.execAdmissionRerun s
  | .shedResourcesFree t => Sys2Proof.Machine.execShedResourcesFree t s
  | .rds e line => Sys2Proof.Machine.execRds e line s
  | .rdx e line => Sys2Proof.Machine.execRdx e line s
  | .upg e line => Sys2Proof.Machine.execUpg e line s
  | .modI e line => Sys2Proof.Machine.execModI e line s
  | .wbk e line => Sys2Proof.Machine.execWbk e line s
  | .rdc e line => Sys2Proof.Machine.execRdc e line s
  | .wrt e line => Sys2Proof.Machine.execWrt e line s
  | .watch e line kind => Sys2Proof.Machine.execWatch e line kind s
  | .lock e h => Sys2Proof.Machine.execLock e h s
  | .publish e h => Sys2Proof.Machine.execPublish e h s
  | .discard k h => Sys2Proof.Machine.execDiscard k h s
  | .rdo ag line => Sys2Proof.Machine.execRdo ag line s
  | .wrl ag line ws => Sys2Proof.Machine.execWrl ag line ws s
  | .wrm ag line en ws => Sys2Proof.Machine.execWrm ag line en ws s
  | .dataM ag line stall => Sys2Proof.Machine.execDataM ag line stall s
  | .ack ag line stall => Sys2Proof.Machine.execAck ag line stall s
  | .nak ag line => Sys2Proof.Machine.execNak ag line s
  | .nakRetry ag line => Sys2Proof.Machine.execNakRetry ag line s
  | .fail ag line stall => Sys2Proof.Machine.execFail ag line stall s
  | .inv e line => Sys2Proof.Machine.execInv e line s
  | .invApply e => Sys2Proof.Machine.execInvApply e s
  | .fwds e line => Sys2Proof.Machine.execFwds e line s
  | .fwdx e line => Sys2Proof.Machine.execFwdx e line s
  | .rcl e line => Sys2Proof.Machine.execRcl e line s
  | .rsvl e line => Sys2Proof.Machine.execRsvl e line s
  | .iack c line => Sys2Proof.Machine.execIack c line s
  | .fdata e line => Sys2Proof.Machine.execFdata e line s
  | .fnone e line => Sys2Proof.Machine.execFnone e line s
  | .memoryScrub slot => Sys2Proof.Machine.execMemoryScrub slot s
  | .burstUnanswered ch => Sys2Proof.Machine.execBurstUnanswered ch s
  | .interfaceLost ch => Sys2Proof.Machine.execInterfaceLost ch s
  | .channelErrorRate sub => Sys2Proof.Machine.execChannelErrorRate sub s
  | .memoryChannelRetirement ch => Sys2Proof.Machine.execMemoryChannelRetirement ch s
  | .boundaryStaging k => Sys2Proof.Machine.execBoundaryStaging k s
  | .releaseEvent tick => Sys2Proof.Machine.execReleaseEvent tick s
  | .overflowMove e => Sys2Proof.Machine.execOverflowMove e s
  | .contextRecordWrite ag k idx w => Sys2Proof.Machine.execContextRecordWrite ag k idx w s
  | .tenantRecordWrite ag off w => Sys2Proof.Machine.execTenantRecordWrite ag off w s
  | .rsvcfgWrite ag w => Sys2Proof.Machine.execRsvcfgWrite ag w s
  | .pctlClear ag e w => Sys2Proof.Machine.execPctlClear ag e w s
  | .readClear ag off dbl => Sys2Proof.Machine.execReadClear ag off dbl s
  | .registerWrite ag off w => Sys2Proof.Machine.execRegisterWrite ag off w s
  | .mailboxDoorbell ag src w => Sys2Proof.Machine.execMailboxDoorbell ag src w s
  | .health src msg => Sys2Proof.Machine.execHealth src msg s
  | .journalRead src msg => Sys2Proof.Machine.execJournalRead src msg s
  | .admissionQuery src msg => Sys2Proof.Machine.execAdmissionQuery src msg s
  | .noticeRead src msg => Sys2Proof.Machine.execNoticeRead src msg s
  | .recordRead src msg => Sys2Proof.Machine.execRecordRead src msg s
  | .tenantCreate src msg => Sys2Proof.Machine.execTenantCreate src msg s
  | .tenantRetire src msg => Sys2Proof.Machine.execTenantRetire src msg s
  | .tenantRetireComplete t => Sys2Proof.Machine.execTenantRetireComplete t s
  | .tenantSet src msg => Sys2Proof.Machine.execTenantSet src msg s
  | .tenantSeal src msg => Sys2Proof.Machine.execTenantSeal src msg s
  | .tenantUnseal src msg => Sys2Proof.Machine.execTenantUnseal src msg s
  | .segmentAllocate src msg => Sys2Proof.Machine.execSegmentAllocate src msg s
  | .segmentFree src msg => Sys2Proof.Machine.execSegmentFree src msg s
  | .segmentResize src msg => Sys2Proof.Machine.execSegmentResize src msg s
  | .contextCreate src msg => Sys2Proof.Machine.execContextCreate src msg s
  | .contextSet src msg => Sys2Proof.Machine.execContextSet src msg s
  | .contextArm src msg => Sys2Proof.Machine.execContextArm src msg s
  | .contextDisarm src msg => Sys2Proof.Machine.execContextDisarm src msg s
  | .contextRetire src msg => Sys2Proof.Machine.execContextRetire src msg s
  | .bind src msg => Sys2Proof.Machine.execBind src msg s
  | .unbind src msg => Sys2Proof.Machine.execUnbind src msg s
  | .sessionInstall src msg => Sys2Proof.Machine.execSessionInstall src msg s
  | .sessionRetire src msg => Sys2Proof.Machine.execSessionRetire src msg s
  | .keyInstall src msg => Sys2Proof.Machine.execKeyInstall src msg s
  | .keySelect src msg => Sys2Proof.Machine.execKeySelect src msg s
  | .portSet src msg => Sys2Proof.Machine.execPortSet src msg s
  | .streamSet src msg => Sys2Proof.Machine.execStreamSet src msg s
  | .timeSet src msg => Sys2Proof.Machine.execTimeSet src msg s
  | .channelBind src msg => Sys2Proof.Machine.execChannelBind src msg s
  | .channelUnbind src msg => Sys2Proof.Machine.execChannelUnbind src msg s
  | .firmwareStage src msg => Sys2Proof.Machine.execFirmwareStage src msg s
  | .firmwareStageComplete kind target => Sys2Proof.Machine.execFirmwareStageComplete kind target s
  | .firmwareActivate src msg => Sys2Proof.Machine.execFirmwareActivate src msg s
  | .firmwareAbandon src msg => Sys2Proof.Machine.execFirmwareAbandon src msg s
  | .unitRetire src msg => Sys2Proof.Machine.execUnitRetire src msg s
  | .unitRestore src msg => Sys2Proof.Machine.execUnitRestore src msg s
  | .unitRestoreComplete ukind unit pass => Sys2Proof.Machine.execUnitRestoreComplete ukind unit pass s
  | .groupsSet src msg => Sys2Proof.Machine.execGroupsSet src msg s
  | .powerPolicy src msg => Sys2Proof.Machine.execPowerPolicy src msg s
  | .pairing src msg => Sys2Proof.Machine.execPairing src msg s
  | .witnessGrant src msg => Sys2Proof.Machine.execWitnessGrant src msg s
  | .debugGrant src msg => Sys2Proof.Machine.execDebugGrant src msg s
  | .debugRevoke src msg => Sys2Proof.Machine.execDebugRevoke src msg s
  | .platformSet src msg => Sys2Proof.Machine.execPlatformSet src msg s
  | .storeRebase => Sys2Proof.Machine.execStoreRebase s
  | .mpHeartbeatLost => Sys2Proof.Machine.execMpHeartbeatLost s
  | .customerSwitchTime => Sys2Proof.Machine.execCustomerSwitchTime s
  | .vendorUpdateEngine e => Sys2Proof.Machine.execVendorUpdateEngine e s
  | .mantleEngineSwitch e => Sys2Proof.Machine.execMantleEngineSwitch e s
  | .replacementComplete kind entry => Sys2Proof.Machine.execReplacementComplete kind entry s
  | .moverArm ag c n shadow => Sys2Proof.Machine.execMoverArm ag c n shadow s
  | .transferStart c => Sys2Proof.Machine.execTransferStart c s
  | .transferEnd c => Sys2Proof.Machine.execTransferEnd c s
  | .moverAbort ag c n => Sys2Proof.Machine.execMoverAbort ag c n s
  | .shadowDisarm ag c n => Sys2Proof.Machine.execShadowDisarm ag c n s
  | .moverRequestTimeout c => Sys2Proof.Machine.execMoverRequestTimeout c s
  | .moverFailure c => Sys2Proof.Machine.execMoverFailure c s
  | .frameReceived p f => Sys2Proof.Machine.execFrameReceived p f s
  | .eliminationResetTimeout h => Sys2Proof.Machine.execEliminationResetTimeout h s
  | .slowPathFrame p => Sys2Proof.Machine.execSlowPathFrame p s
  | .linkUp p => Sys2Proof.Machine.execLinkUp p s
  | .linkDown p => Sys2Proof.Machine.execLinkDown p s
  | .frameTransmit p => Sys2Proof.Machine.execFrameTransmit p s
  | .preemptionVerify p ok => Sys2Proof.Machine.execPreemptionVerify p ok s
  | .gateEntryAdvance stream idx => Sys2Proof.Machine.execGateEntryAdvance stream idx s
  | .gateChangeArm ag stream idx w => Sys2Proof.Machine.execGateChangeArm ag stream idx w s
  | .gateChangeTime stream idx => Sys2Proof.Machine.execGateChangeTime stream idx s
  | .deviceTimeStep ag sec ns => Sys2Proof.Machine.execDeviceTimeStep ag sec ns s
  | .deviceTimeRate ag w => Sys2Proof.Machine.execDeviceTimeRate ag w s
  | .gptpFrameReceived p => Sys2Proof.Machine.execGptpFrameReceived p s
  | .gptpSyncSend => Sys2Proof.Machine.execGptpSyncSend s
  | .gptpMasterLost => Sys2Proof.Machine.execGptpMasterLost s
  | .septegPublish => Sys2Proof.Machine.execSeptegPublish s
  | .septegRead => Sys2Proof.Machine.execSeptegRead s
  | .septegWrite => Sys2Proof.Machine.execSeptegWrite s
  | .septegMailbox => Sys2Proof.Machine.execSeptegMailbox s
  | .mailboxResponse ses => Sys2Proof.Machine.execMailboxResponse ses s
  | .septegTime => Sys2Proof.Machine.execSeptegTime s
  | .septegHeartbeat => Sys2Proof.Machine.execSeptegHeartbeat s
  | .heartbeatSend ses => Sys2Proof.Machine.execHeartbeatSend ses s
  | .sessionDown ses => Sys2Proof.Machine.execSessionDown ses s
  | .outputPublish k => Sys2Proof.Machine.execOutputPublish k s
  | .pairsync => Sys2Proof.Machine.execPairsync s
  | .pairsyncAck => Sys2Proof.Machine.execPairsyncAck s
  | .pairsyncRetransmit => Sys2Proof.Machine.execPairsyncRetransmit s
  | .epochMarker => Sys2Proof.Machine.execEpochMarker s
  | .resynchronisation => Sys2Proof.Machine.execResynchronisation s
  | .arbInPattern pat => Sys2Proof.Machine.execArbInPattern pat s
  | .arbInAbsent => Sys2Proof.Machine.execArbInAbsent s
  | .switchoverTime => Sys2Proof.Machine.execSwitchoverTime s
  | .deviceFailure unit => Sys2Proof.Machine.execDeviceFailure unit s
  | .deviceRestart => Sys2Proof.Machine.execDeviceRestart s
  | .watchdogExpiry => Sys2Proof.Machine.execWatchdogExpiry s
  | .supplyFault rail below85 => Sys2Proof.Machine.execSupplyFault rail below85 s
  | .tjUpdate temp => Sys2Proof.Machine.execTjUpdate temp s
  | .refInputLost inB => Sys2Proof.Machine.execRefInputLost inB s
  | .refInputUsable inB => Sys2Proof.Machine.execRefInputUsable inB s
  | .refHoldTimeout => Sys2Proof.Machine.execRefHoldTimeout s
  | .powerOnReset => Sys2Proof.Machine.execPowerOnReset s
  | .deviceReset => Sys2Proof.Machine.execDeviceReset s
  | .coldStart env => Sys2Proof.Machine.execColdStart env s
  | .memoryInitComplete cap => Sys2Proof.Machine.execMemoryInitComplete cap s
  | .recoveryAnnounce => Sys2Proof.Machine.execRecoveryAnnounce s
  | .recoveryData sender off octets => Sys2Proof.Machine.execRecoveryData sender off octets s
  | .recoveryInstall sender len => Sys2Proof.Machine.execRecoveryInstall sender len s
  | .recoverySenderTimeout => Sys2Proof.Machine.execRecoverySenderTimeout s
  | .lkwLock ag idx => Sys2Proof.Machine.execLkwLock ag idx s
  | .lkwRelease ag idx => Sys2Proof.Machine.execLkwRelease ag idx s
  | .programOwnerSlot ag slot => Sys2Proof.Machine.execProgramOwnerSlot ag slot s
  | .seal ag => Sys2Proof.Machine.execSeal ag s
  | .openI ag => Sys2Proof.Machine.execOpenI ag s
  | .pearlExit e => Sys2Proof.Machine.execPearlExit e s
  | .slateEntry c => Sys2Proof.Machine.execSlateEntry c s
  | .slateExit c => Sys2Proof.Machine.execSlateExit c s
  | .sableEntry => Sys2Proof.Machine.execSableEntry s
  | .sableWake => Sys2Proof.Machine.execSableWake s
  | .debugAttach => Sys2Proof.Machine.execDebugAttach s
  | .debugReset => Sys2Proof.Machine.execDebugReset s
  | .sample => Sys2Proof.Machine.execSample s
  | .preload => Sys2Proof.Machine.execPreload s
  | .extest => Sys2Proof.Machine.execExtest s
  | .leaveExtest => Sys2Proof.Machine.execLeaveExtest s
  | .bypass => Sys2Proof.Machine.execBypass s
  | .debugReadWord space eng addr => Sys2Proof.Machine.execDebugReadWord space eng addr s
  | .debugWriteWord space eng addr w => Sys2Proof.Machine.execDebugWriteWord space eng addr w s
  | .debugAccessDone answered => Sys2Proof.Machine.execDebugAccessDone answered s
  | .debugHaltRequest g => Sys2Proof.Machine.execDebugHaltRequest g s
  | .debugRelease g => Sys2Proof.Machine.execDebugRelease g s
  | .haltTaken e => Sys2Proof.Machine.execHaltTaken e s
  | .stopAll => Sys2Proof.Machine.execStopAll s
  | .stopAllResume => Sys2Proof.Machine.execStopAllResume s
  | .grantExpiry => Sys2Proof.Machine.execGrantExpiry s
  | .seginvComplete e stall => Sys2Proof.Machine.execSeginvComplete e stall s
  | .controlWindowLoadAnswer e stall => Sys2Proof.Machine.execControlWindowLoadAnswer e stall s
  | .paddedStallEnd e => Sys2Proof.Machine.execPaddedStallEnd e s
  | .nearStoreScrub e addr => Sys2Proof.Machine.execNearStoreScrub e addr s
  | .septegWriteUnanswered => Sys2Proof.Machine.execSeptegWriteUnanswered s
  | .welanaSwitchTime => Sys2Proof.Machine.execWelanaSwitchTime s
  | .recoveryLoaderReset => Sys2Proof.Machine.execRecoveryLoaderReset s
  | .standbySyncLost => Sys2Proof.Machine.execStandbySyncLost s
  | .standbyReferenceInputLost inB => Sys2Proof.Machine.execStandbyReferenceInputLost inB s
  | .peerDelayMeasurement p delay => Sys2Proof.Machine.execPeerDelayMeasurement p delay s

end Sys2Proof.Machine
end

