-- ==== Sys2Proof/Safety.lean ====
section
/-! DEFINITION. What counts as a safe run: the queue holds only commands that exist, and every sparse table of the state is
in its one canonical form, so that equal contents are equal data. -/

namespace Sys2Proof.Machine

/-- Every waiting command is well formed. -/
def queueOk (s : State) : Bool := s.pending.all wellFormed

/-- The control window in canonical form: offsets strictly rising, no word listed at its reset value. -/
def ctlWf (s : State) : Bool := trising none s.ctl && s.ctl.all fun p => decide (p.2 ≠ ctlReset p.1)

/-- The memory system in canonical form: DRAM words, DRAM check words and boot-SRAM words. -/
def Mem.wf (m : Mem) : Bool := twf 0 m.dram && twf 0 m.chk && twf 0 m.bootSram

/-- The engines in canonical form. -/
def engWf (s : State) : Bool := twf Engine.reset s.eng

/-- Engine e executes an instruction of n parcels at once: it is in service and runs, no exception, halt or breakpoint stands
before the instruction, no stall holds one, it stands in no delay slot, no repeat is under way, every result has landed, the
fetch checks of R92 pass, the instruction's lines hit the line buffer or the L1 instruction cache, and so does the line behind them where
F1 reads it now (R182), so that no request leaves. -/
def ready (s : State) (e n : Nat) : Bool :=
  let g := s.e e
  decide (e < 144) && canIssue g && (boundaryExc s e).isNone && (bpMatch s e 0).isNone && g.pipe.slot.isNone && !g.pipe.skip
    && !g.dsBit && decide (g.rc = 0) && g.pipe.pend.isEmpty && decide (g.run.stepMode = .run) && g.run.resuming.isNone
    && match fetchCheck s e n with
       | .ok _ pas => (((s.e e).lbufAt (pas.headD 0 / 8)).fetchMiss pas).isNone && !(s.e e).aheadMiss (pas.headD 0 / 8)
       | _ => false

/-- The same for a branch of n parcels, at whose delay slot no breakpoint stands in OPEN mode (R595). -/
def readyBranch (s : State) (e n : Nat) : Bool := ready s e n && (bpMatch s e n).isNone

/-- Two states that differ in the engines and the control window alone. -/
structure OutsideSame (s t : State) : Prop where
  home : t.home = s.home
  mem : t.mem = s.mem
  rel : t.rel = s.rel
  movers : t.movers = s.movers
  net : t.net = s.net
  wel : t.wel = s.wel
  boot : t.boot = s.boot
  sys : t.sys = s.sys
  answer : t.answer = s.answer
  freeCtr : t.freeCtr = s.freeCtr
  pending : t.pending = s.pending

/-- A state that engine e alone may have changed, apart from its own counters: the other engines are as before, and so is every
word of the control window outside the 64 words of the engine's counters. -/
structure OnlyEngine (e : Nat) (s t : State) : Prop where
  out : OutsideSame s t
  others : ∀ m, m ≠ e → t.e m = s.e m
  ctl : ∀ off, ¬ (rPerf e ≤ off ∧ off < rPerf e + 0o40) → t.cg off = s.cg off

/-- A safe run of k steps: it never stops. -/
def safeRun : Nat → State → Bool
  | 0, _ => true
  | k + 1, s => match step s with
    | .next t => safeRun k t
    | _ => false

end Sys2Proof.Machine
end

