-- ==== Sys2Proof/Certificates/Slice0/Obligations.lean ====
section
/-! DEFINITION. The statements for the provers. Each completion statement says of every command that it names where the command
takes effect, and what the next state then holds. -/

namespace Sys2Proof.Claims

open Sys2Proof.Machine

/-! ## Words that the statements use -/

/-- The command answers a next state with this property. -/
def Does (i : Instr) (s : State) (P : State → Prop) : Prop := ∃ t, exec i s = .next t ∧ P t

/-- The flags of a result (R137): the bits of ST that an instruction writes, by their numbers. -/
def flagsNone (_ : Nat) : Option Bool := none
def flagsZ (r : Word) (b : Nat) : Option Bool := if b = 6 then some (decide (r = 0)) else none
def flagsZN (r : Word) (b : Nat) : Option Bool := if b = 7 then some r.msb else flagsZ r b
def flagsZNC (r : Word) (c : Bool) (b : Nat) : Option Bool := if b = 8 then some c else flagsZN r b
def flagsZNV (r : Word) (v : Bool) (b : Nat) : Option Bool := if b = 9 then some v else flagsZN r b
def flagsZNCV (r : Word) (c v : Bool) (b : Nat) : Option Bool := if b = 9 then some v else flagsZNC r c b

/-- Z and N of a result, and Q set where the exact value lies outside the signed range; Q otherwise keeps its value. -/
def flagsQ (r : Word) (z : Int) (b : Nat) : Option Bool :=
  if b = 10 then (if z < -2 ^ 35 ∨ 2 ^ 35 ≤ z then some true else none) else flagsZN r b

/-- The exact signed value lies outside the range of a word. -/
def ovf (z : Int) : Bool := decide (z < -2 ^ 35 ∨ 2 ^ 35 ≤ z)

/-- sat of R136's pseudocode, as a word. -/
def satW (z : Int) : Word := BitVec.ofInt 36 (min (max z (-2 ^ 35)) (2 ^ 35 - 1))

/-- The registers of an engine but W0 to W15, PH, PL, ST and the program counter. -/
def rest (x : Regs) : Regs := { x with w := [], ph := 0, pl := 0, st := 0, pc := 0 }

/-- The engine has executed n parcels: nothing changes but the engine and its own counters, its program counter moves past the
instruction, no exception is detected, and its special registers, its near store, its L1 data cache, its store buffer, its
reservation and its watched granules are as before. -/
def Ran (e n : Nat) (s t : State) : Prop :=
  OnlyEngine e s t ∧ (t.e e).regs.pc = ((s.e e).regs.pc + n) % 2 ^ 37 ∧ (t.e e).pipe.exc = none ∧
    rest (t.e e).regs = rest (s.e e).regs ∧ (t.e e).mem.near = (s.e e).mem.near ∧ (t.e e).mem.l1d = (s.e e).mem.l1d ∧
    (t.e e).mem.sb = (s.e e).mem.sb ∧ (t.e e).mem.resv = (s.e e).mem.resv ∧ (t.e e).mem.watch = (s.e e).mem.watch

/-- The engine with every outstanding result landed. -/
def final (g : Engine) : Engine := g.landUpTo g.lastLanding

/-- An instruction of n parcels that writes at most one general register and some flags, at once: `res` gives the register and
its word, `fl` the flags, from the registers before. -/
def IntegerDoes (e n : Nat) (i : Instr) (res : Regs → Option (Nat × Word)) (fl : Regs → Nat → Option Bool) : Prop :=
  ∀ s, ready s e n = true → Does i s fun t =>
    Ran e n s t ∧ (t.e e).pipe.pend = [] ∧ (t.e e).regs.ph = (s.e e).regs.ph ∧ (t.e e).regs.pl = (s.e e).regs.pl ∧
      (∀ r, (t.e e).w r = match res (s.e e).regs with
        | some (a, v) => if r = a then v else (s.e e).w r
        | none => (s.e e).w r) ∧
      ∀ b, b < 36 → bit (t.e e).regs.st b = (fl (s.e e).regs b).getD (bit (s.e e).regs.st b)

/-- W`n` of a register set. -/
def wOf (x : Regs) (n : Nat) : Word := tget 0 x.w n

/-- An integer instruction of the short format on x = W`a`, y = W`b` and C. -/
def ShortDoes (e a b : Nat) (i : Instr) (f : Word → Word → Bool → Word) (fl : Word → Word → Bool → Nat → Option Bool) : Prop :=
  IntegerDoes e 1 i (fun x => some (a, f (wOf x a) (wOf x b) (bit x.st 8)))
    (fun x => fl (wOf x a) (wOf x b) (bit x.st 8))

/-- As `ShortDoes`, without a result. -/
def ShortTests (e a b : Nat) (i : Instr) (fl : Word → Word → Nat → Option Bool) : Prop :=
  IntegerDoes e 1 i (fun _ => none) (fun x => fl (wOf x a) (wOf x b))

/-- C and V of an addition and of a subtraction (R137). -/
def addFlags (x y : Word) (c : Bool) : Nat → Option Bool :=
  flagsZNCV (x + y + BitVec.ofNat 36 c.toNat) (decide (2 ^ 36 ≤ x.toNat + y.toNat + c.toNat)) (ovf (x.toInt + y.toInt + c.toNat))
def subFlags (x y : Word) (c : Bool) : Nat → Option Bool :=
  flagsZNCV (x - y - BitVec.ofNat 36 c.toNat) (decide (x.toNat < y.toNat + c.toNat)) (ovf (x.toInt - y.toInt - c.toNat))

/-- The shifts (R136 to R138), with C the last bit shifted out. -/
def shlW (x : Word) (n : Nat) : Word := if 36 ≤ n then 0 else x <<< n
def shrW (x : Word) (n : Nat) : Word := if 36 ≤ n then 0 else x >>> n
def sarW (x : Word) (n : Nat) : Word := if 36 ≤ n then (if x.msb then BitVec.allOnes 36 else 0) else x.sshiftRight n
def shlC (x : Word) (n : Nat) : Bool := decide (1 ≤ n ∧ n ≤ 36) && bit x (n - 1)
def shrC (x : Word) (n : Nat) : Bool := decide (1 ≤ n ∧ n ≤ 36) && bit x (36 - n)
def sarC (x : Word) (n : Nat) : Bool := decide (1 ≤ n) && (if 36 ≤ n then x.msb else bit x (36 - n))

/-- Octets of PACK and UNPK (R136). -/
def packW (y : Word) : Word :=
  (0#1 ++ y.extractLsb' 24 8 ++ (0#1 ++ y.extractLsb' 16 8) ++ (0#1 ++ y.extractLsb' 8 8) ++ (0#1 ++ y.extractLsb' 0 8) : BitVec 36)
def unpkW (y : Word) : Word :=
  (0#4 ++ y.extractLsb' 27 8 ++ y.extractLsb' 18 8 ++ y.extractLsb' 9 8 ++ y.extractLsb' 0 8 : BitVec 36)

/-- The number of leading zero bits. -/
def leadingZeros (y : Word) : Nat := ((List.range 36).takeWhile fun i => !bit y i).length

/-- imm8 and imm18 sign-extended (R130). -/
def imm8 (n : Nat) : Word := (BitVec.ofNat 8 n).signExtend 36
def imm18 (n : Nat) : Word := (BitVec.ofNat 18 n).signExtend 36

end Sys2Proof.Claims

section

open Sys2Proof Sys2Proof.Machine Sys2Proof.Claims

/-! ## The instructions of an engine -/

/-- R136 to R138: what each short-format integer instruction writes. -/
def Obligations.ShortIntegerResults : Prop :=
  ∀ e a b, e < 144 → a < 16 → b < 16 →
    ShortDoes e a b (.mov e a b) (fun _ y _ => y) (fun _ _ _ => flagsNone) ∧
    ShortDoes e a b (.add e a b) (fun x y _ => x + y) (fun x y _ => addFlags x y false) ∧
    ShortDoes e a b (.adc e a b) (fun x y c => x + y + BitVec.ofNat 36 c.toNat) addFlags ∧
    ShortDoes e a b (.sub e a b) (fun x y _ => x - y) (fun x y _ => subFlags x y false) ∧
    ShortDoes e a b (.sbc e a b) (fun x y c => x - y - BitVec.ofNat 36 c.toNat) subFlags ∧
    ShortDoes e a b (.and e a b) (fun x y _ => x &&& y) (fun x y _ => flagsZN (x &&& y)) ∧
    ShortDoes e a b (.or e a b) (fun x y _ => x ||| y) (fun x y _ => flagsZN (x ||| y)) ∧
    ShortDoes e a b (.xor e a b) (fun x y _ => x ^^^ y) (fun x y _ => flagsZN (x ^^^ y)) ∧
    ShortDoes e a b (.andn e a b) (fun x y _ => x &&& ~~~y) (fun x y _ => flagsZN (x &&& ~~~y)) ∧
    ShortDoes e a b (.not e a b) (fun _ y _ => ~~~y) (fun _ y _ => flagsZN (~~~y)) ∧
    ShortDoes e a b (.neg e a b) (fun _ y _ => -y) (fun _ y _ => subFlags 0 y false) ∧
    ShortTests e a b (.cmp e a b) (fun x y => subFlags x y false) ∧
    ShortTests e a b (.tst e a b) (fun x y => flagsZN (x &&& y)) ∧
    ShortDoes e a b (.shl e a b) (fun x y _ => shlW x y.toNat) (fun x y _ => flagsZNC (shlW x y.toNat) (shlC x y.toNat)) ∧
    ShortDoes e a b (.shr e a b) (fun x y _ => shrW x y.toNat) (fun x y _ => flagsZNC (shrW x y.toNat) (shrC x y.toNat)) ∧
    ShortDoes e a b (.sar e a b) (fun x y _ => sarW x y.toNat) (fun x y _ => flagsZNC (sarW x y.toNat) (sarC x y.toNat)) ∧
    ShortDoes e a b (.rol e a b) (fun x y _ => x.rotateLeft (y.toNat % 36))
      (fun x y _ => flagsZN (x.rotateLeft (y.toNat % 36))) ∧
    ShortDoes e a b (.addS e a b) (fun x y _ => satW (x.toInt + y.toInt))
      (fun x y _ => flagsQ (satW (x.toInt + y.toInt)) (x.toInt + y.toInt)) ∧
    ShortDoes e a b (.subS e a b) (fun x y _ => satW (x.toInt - y.toInt))
      (fun x y _ => flagsQ (satW (x.toInt - y.toInt)) (x.toInt - y.toInt)) ∧
    ShortDoes e a b (.negS e a b) (fun _ y _ => satW (-y.toInt)) (fun _ y _ => flagsQ (satW (-y.toInt)) (-y.toInt)) ∧
    ShortDoes e a b (.abs e a b) (fun _ y _ => BitVec.ofNat 36 y.toInt.natAbs)
      (fun _ y _ => flagsZNV (BitVec.ofNat 36 y.toInt.natAbs) (decide (y.toInt = -2 ^ 35))) ∧
    ShortDoes e a b (.absS e a b) (fun _ y _ => satW y.toInt.natAbs)
      (fun _ y _ => flagsQ (satW y.toInt.natAbs) y.toInt.natAbs) ∧
    ShortDoes e a b (.min e a b) (fun x y _ => if x.toInt ≤ y.toInt then x else y)
      (fun x y _ => flagsZN (if x.toInt ≤ y.toInt then x else y)) ∧
    ShortDoes e a b (.max e a b) (fun x y _ => if x.toInt ≤ y.toInt then y else x)
      (fun x y _ => flagsZN (if x.toInt ≤ y.toInt then y else x)) ∧
    ShortDoes e a b (.minu e a b) (fun x y _ => if x.toNat ≤ y.toNat then x else y)
      (fun x y _ => flagsZN (if x.toNat ≤ y.toNat then x else y)) ∧
    ShortDoes e a b (.maxu e a b) (fun x y _ => if x.toNat ≤ y.toNat then y else x)
      (fun x y _ => flagsZN (if x.toNat ≤ y.toNat then y else x)) ∧
    ShortDoes e a b (.clz e a b) (fun _ y _ => BitVec.ofNat 36 (leadingZeros y))
      (fun _ y _ => flagsZ (BitVec.ofNat 36 (leadingZeros y))) ∧
    ShortDoes e a b (.pack e a b) (fun _ y _ => packW y) (fun _ _ _ => flagsNone) ∧
    ShortDoes e a b (.unpk e a b) (fun _ y _ => unpkW y) (fun _ _ _ => flagsNone)

/-- R139: what each immediate integer instruction writes. -/
def Obligations.ImmediateIntegerResults : Prop :=
  ∀ e a b imm, e < 144 → a < 16 → b < 16 → 
    (imm < 256 →
      IntegerDoes e 1 (.movq e a imm) (fun _ => some (a, imm8 imm)) (fun _ => flagsNone) ∧
      IntegerDoes e 1 (.addq e a imm) (fun x => some (a, wOf x a + imm8 imm)) (fun x => addFlags (wOf x a) (imm8 imm) false) ∧
      IntegerDoes e 1 (.cmpq e a imm) (fun _ => none) (fun x => subFlags (wOf x a) (imm8 imm) false) ∧
      IntegerDoes e 1 (.shlq e a imm) (fun x => some (a, shlW (wOf x a) imm))
        (fun x => flagsZNC (shlW (wOf x a) imm) (shlC (wOf x a) imm)) ∧
      IntegerDoes e 1 (.shrq e a imm) (fun x => some (a, shrW (wOf x a) imm))
        (fun x => flagsZNC (shrW (wOf x a) imm) (shrC (wOf x a) imm)) ∧
      IntegerDoes e 1 (.sarq e a imm) (fun x => some (a, sarW (wOf x a) imm))
        (fun x => flagsZNC (sarW (wOf x a) imm) (sarC (wOf x a) imm)) ∧
      IntegerDoes e 1 (.rolq e a imm) (fun x => some (a, (wOf x a).rotateLeft (imm % 36)))
        (fun x => flagsZN ((wOf x a).rotateLeft (imm % 36))) ∧
      (imm < 36 → IntegerDoes e 1 (.tstb e a imm) (fun _ => none)
        (fun x b => if b = 6 then some (!bit (wOf x a) imm) else none))) ∧
    (imm < 262144 →
      IntegerDoes e 2 (.ldi e a 0 imm) (fun _ => some (a, imm18 imm)) (fun _ => flagsNone) ∧
      IntegerDoes e 2 (.lui e a 0 imm) (fun _ => some (a, BitVec.ofNat 36 imm <<< 18)) (fun _ => flagsNone) ∧
      IntegerDoes e 2 (.addi e a b 0 imm) (fun x => some (a, wOf x b + imm18 imm)) (fun x => addFlags (wOf x b) (imm18 imm) false) ∧
      IntegerDoes e 2 (.addiS e a b 0 imm) (fun x => some (a, satW ((wOf x b).toInt + (imm18 imm).toInt)))
        (fun x => flagsQ (satW ((wOf x b).toInt + (imm18 imm).toInt)) ((wOf x b).toInt + (imm18 imm).toInt)) ∧
      IntegerDoes e 2 (.andi e a b 0 imm) (fun x => some (a, wOf x b &&& BitVec.ofNat 36 imm))
        (fun x => flagsZN (wOf x b &&& BitVec.ofNat 36 imm)) ∧
      IntegerDoes e 2 (.ori e a b 0 imm) (fun x => some (a, wOf x b ||| BitVec.ofNat 36 imm))
        (fun x => flagsZN (wOf x b ||| BitVec.ofNat 36 imm)) ∧
      IntegerDoes e 2 (.xori e a b 0 imm) (fun x => some (a, wOf x b ^^^ BitVec.ofNat 36 imm))
        (fun x => flagsZN (wOf x b ^^^ BitVec.ofNat 36 imm)) ∧
      IntegerDoes e 2 (.cmpi e a 0 imm) (fun _ => none) (fun x => subFlags (wOf x a) (imm18 imm) false))

namespace Sys2Proof.Claims

/-- The bits of FLG and the other bits of ST after an instruction that ORs `o` in and replaces the bits under `m` by those
of `v`. -/
def orFlags (o : Word) (x : Regs) (b : Nat) : Option Bool := some (bit x.st b || bit o b)

/-- A float instruction: `wr` gives the words it writes, by register, and `fl` the bits of ST, both from the registers before,
once its results have landed. -/
def FloatDoes (e : Nat) (i : Instr) (wr : Regs → Nat → Option Word) (fl : Regs → Nat → Option Bool) : Prop :=
  ∀ s, ready s e 1 = true → Does i s fun t =>
    Ran e 1 s t ∧ (final (t.e e)).regs.ph = (s.e e).regs.ph ∧ (final (t.e e)).regs.pl = (s.e e).regs.pl ∧
      (∀ r, (final (t.e e)).w r = (wr (s.e e).regs r).getD ((s.e e).w r)) ∧
      ∀ b, b < 36 → bit (final (t.e e)).regs.st b = (fl (s.e e).regs b).getD (bit (s.e e).regs.st b)

/-- The operands: W`n` as an F36, the pair W`n`, W`n`+1 as an F72, and ST.RND. -/
def s36 (x : Regs) (n : Nat) : FVal := f36.decode (wOf x n).toNat
def pairOf (x : Regs) (n : Nat) : Nat := (wOf x n).toNat * 2 ^ 36 + (wOf x (n + 1)).toNat
def s72 (x : Regs) (n : Nat) : FVal := f72.decode (pairOf x n)
def rndOf (x : Regs) : Nat := fld x.st 16 17

/-- The words of a single and of a double result. -/
def one (a : Nat) (v : Nat) (r : Nat) : Option Word := if r = a then some (BitVec.ofNat 36 v) else none
def two (a : Nat) (v : Nat) (r : Nat) : Option Word :=
  if r = a then some (BitVec.ofNat 36 (v / 2 ^ 36)) else if r = a + 1 then some (BitVec.ofNat 36 v) else none

/-- An arithmetic instruction of F36: W`a` becomes the result, and the float flags are ORed in. -/
def SingleDoes (e a : Nat) (i : Instr) (f : Regs → Nat × Word) : Prop :=
  FloatDoes e i (fun x => one a (f x).1) (fun x => orFlags (f x).2 x)

/-- The same of F72, for the pair at W`a`. -/
def DoubleDoes (e a : Nat) (i : Instr) (f : Regs → Nat × Word) : Prop :=
  FloatDoes e i (fun x => two a (f x).1) (fun x => orFlags (f x).2 x)

/-- FIX and FIX.D: the integer, the float flags and Q. -/
def FixDoes (e a : Nat) (i : Instr) (f : Regs → Int × Word × Bool) : Prop :=
  FloatDoes e i (fun x r => if r = a then some (BitVec.ofInt 36 (f x).1) else none)
    (fun x b => some (bit x.st b || bit (f x).2.1 b || (decide (b = 10) && (f x).2.2)))

/-- FCMP and FCMP.D: Z, N, C and V are those of the relation, and FLG.invalid is ORed in. -/
def FcmpDoes (e : Nat) (i : Instr) (f : Regs → Word × Word) : Prop :=
  FloatDoes e i (fun _ _ => none) (fun x b =>
    if 6 ≤ b ∧ b ≤ 9 then some (bit (f x).1 b || bit (f x).2 b) else orFlags (f x).2 x b)

/-- A multiply instruction: PH:PL, once the result has landed, is `p` of PH:PL in program order and W`a`, W`b`; `q` says whether
Q is set. -/
def MulDoes (e a b : Nat) (i : Instr) (p : Int → Int → Int → Int) (uns : Bool) (q : Int → Int → Int → Bool) : Prop :=
  ∀ s, ready s e 1 = true →
    let g := s.e e
    let acc : Int := (g.pipe.accH ++ g.pipe.accL).toInt
    let x : Int := if uns then (g.w a).toNat else (g.w a).toInt
    let y : Int := if uns then (g.w b).toNat else (g.w b).toInt
    Does i s fun t =>
      Ran e 1 s t ∧ (final (t.e e)).regs.ph ++ (final (t.e e)).regs.pl = BitVec.ofInt 72 (p acc x y) ∧
        (t.e e).pipe.accH = (final (t.e e)).regs.ph ∧ (t.e e).pipe.accL = (final (t.e e)).regs.pl ∧
        (∀ r, (final (t.e e)).w r = g.w r) ∧
        ∀ k, k < 36 → bit (final (t.e e)).regs.st k = (bit g.regs.st k || (decide (k = 10) && q acc x y))

/-- An integer long operation with a divisor that is not zero. -/
def DivDoes (e a b : Nat) (i : Instr) (f : Word → Word → Word) : Prop :=
  ∀ s, ready s e 1 = true →
    (s.e e).w b ≠ 0 → Does i s fun t =>
      Ran e 1 s t ∧ (final (t.e e)).pipe.divDue = (s.e e).pipe.divDue ∧ (final (t.e e)).regs.st = (s.e e).regs.st ∧
        ∀ r, (final (t.e e)).w r = if r = a then f ((s.e e).w a) ((s.e e).w b) else (s.e e).w r

end Sys2Proof.Claims

/-- R140, R141, R142: the multiply instructions and EXTP. -/
def Sys2Proof.Claims.MultiplyResults : Prop :=
  ∀ e a b imm, e < 144 → a < 16 → b < 16 → imm < 72 →
    MulDoes e a b (.mul e a b) (fun _ x y => x * y) false (fun _ _ _ => false) ∧
    MulDoes e a b (.mulu e a b) (fun _ x y => x * y) true (fun _ _ _ => false) ∧
    MulDoes e a b (.mac e a b) (fun p x y => p + x * y) false (fun _ _ _ => false) ∧
    MulDoes e a b (.macS e a b) (fun p x y => min (max (p + x * y) (-2 ^ 71)) (2 ^ 71 - 1)) false
      (fun p x y => decide (p + x * y < -2 ^ 71 ∨ 2 ^ 71 ≤ p + x * y)) ∧
    IntegerDoes e 1 (.extp e a imm)
      (fun x => some (a, satW (((x.ph ++ x.pl).toInt + (if imm = 0 then 0 else 2 ^ (imm - 1))) / 2 ^ imm)))
      (fun x => flagsQ (satW (((x.ph ++ x.pl).toInt + (if imm = 0 then 0 else 2 ^ (imm - 1))) / 2 ^ imm))
        (((x.ph ++ x.pl).toInt + (if imm = 0 then 0 else 2 ^ (imm - 1))) / 2 ^ imm))

/-- R156: the integer long operations with a divisor that is not zero. -/
def Sys2Proof.Claims.IntegerDivisionResults : Prop :=
  ∀ e a b, e < 144 → a < 16 → b < 16 →
    DivDoes e a b (.div e a b) (fun x y => BitVec.ofInt 36 (x.toInt.tdiv y.toInt)) ∧
    DivDoes e a b (.divu e a b) (fun x y => x / y) ∧
    DivDoes e a b (.rem e a b) (fun x y => BitVec.ofInt 36 (x.toInt - y.toInt * x.toInt.tdiv y.toInt)) ∧
    DivDoes e a b (.remu e a b) (fun x y => x % y)

/-- R156, R197, R241: a division by zero leaves W`a` and records a divide fault when it would have landed; LONG_OP_LANDING makes
it due, and the next boundary takes it with cause 40 (octal) + a. -/
def Sys2Proof.Claims.DivisionByZero : Prop :=
  ∀ e a b, e < 144 → a < 16 → b < 16 → ∀ i ∈ [Instr.div e a b, .divu e a b, .rem e a b, .remu e a b],
    ∀ s, ready s e 1 = true → (s.e e).w b = 0 → (s.e e).pipe.divDue = none → (s.e e).pipe.dlPend = false →
      Does i s fun t =>
      Ran e 1 s t ∧ (∀ r, (final (t.e e)).w r = (s.e e).w r) ∧ (t.e e).pipe.divDue = none ∧
        Does (.longOpLanding e) t fun u =>
          (u.e e).pipe.divDue = some a ∧ (u.e e).pipe.pend = [] ∧ (∀ r, (u.e e).w r = (s.e e).w r) ∧
            boundaryExc u e = some { vec := 0o13, cause := 0o40 + a, seg := 0, off := 0, ret := (t.e e).regs.pc, ds := false }

/-- The integer instructions of the long pipeline: the statements above together.
The model's own choices and readings in it: log entry 10. -/
def Obligations.LongIntegerResults : Prop := Sys2Proof.Claims.MultiplyResults ∧ Sys2Proof.Claims.IntegerDivisionResults ∧ Sys2Proof.Claims.DivisionByZero

/-- R143, R150 to R153: the instructions on F36 in one word. -/
def Sys2Proof.Claims.SingleFloatResults : Prop :=
  ∀ e a b, e < 144 → a < 16 → b < 16 →
    SingleDoes e a (.fadd e a b) (fun x => f36.add (rndOf x) (s36 x a) (s36 x b)) ∧
    SingleDoes e a (.fsub e a b) (fun x => f36.add (rndOf x) (s36 x a) (s36 x b).neg) ∧
    SingleDoes e a (.fmul e a b) (fun x => f36.mul (rndOf x) (s36 x a) (s36 x b)) ∧
    SingleDoes e a (.fdiv e a b) (fun x => f36.div (rndOf x) (s36 x a) (s36 x b)) ∧
    SingleDoes e a (.fsqrt e a b) (fun x => f36.sqrt (rndOf x) (s36 x b)) ∧
    SingleDoes e a (.fmin e a b) (fun x => f36.minmax false (s36 x a) (s36 x b)) ∧
    SingleDoes e a (.fmax e a b) (fun x => f36.minmax true (s36 x a) (s36 x b)) ∧
    SingleDoes e a (.flt e a b) (fun x => f36.ofInt (rndOf x) (wOf x b).toInt) ∧
    FixDoes e a (.fix e a b) (fun x => fixOf (rndOf x) (s36 x b)) ∧
    FcmpDoes e (.fcmp e a b) (fun x => fcmpFlags (s36 x a) (s36 x b)) ∧
    FloatDoes e (.fneg e a b) (fun x r => if r = a then some (wOf x b ^^^ BitVec.ofNat 36 (2 ^ 35)) else none) (fun _ => flagsNone) ∧
    FloatDoes e (.fabs e a b) (fun x r => if r = a then some (wOf x b &&& ~~~ BitVec.ofNat 36 (2 ^ 35)) else none)
      (fun _ => flagsNone)

/-- The same for F72 in register pairs: every pair field is even; the field of a single word is any register. -/
def Sys2Proof.Claims.DoubleFloatResults : Prop :=
  ∀ e a b, e < 144 → a < 16 → b < 16 →
    (a % 2 = 0 → b % 2 = 0 →
      DoubleDoes e a (.faddD e a b) (fun x => f72.add (rndOf x) (s72 x a) (s72 x b)) ∧
      DoubleDoes e a (.fsubD e a b) (fun x => f72.add (rndOf x) (s72 x a) (s72 x b).neg) ∧
      DoubleDoes e a (.fmulD e a b) (fun x => f72.mul (rndOf x) (s72 x a) (s72 x b)) ∧
      DoubleDoes e a (.fdivD e a b) (fun x => f72.div (rndOf x) (s72 x a) (s72 x b)) ∧
      DoubleDoes e a (.fsqrtD e a b) (fun x => f72.sqrt (rndOf x) (s72 x b)) ∧
      FcmpDoes e (.fcmpD e a b) (fun x => fcmpFlags (s72 x a) (s72 x b)) ∧
      FloatDoes e (.fnegD e a b) (fun x r => if r = a then some (wOf x b ^^^ BitVec.ofNat 36 (2 ^ 35))
        else if r = a + 1 then some (wOf x (b + 1)) else none) (fun _ => flagsNone) ∧
      FloatDoes e (.fabsD e a b) (fun x r => if r = a then some (wOf x b &&& ~~~ BitVec.ofNat 36 (2 ^ 35))
        else if r = a + 1 then some (wOf x (b + 1)) else none) (fun _ => flagsNone)) ∧
    (a % 2 = 0 →
      DoubleDoes e a (.fltD e a b) (fun x => f72.ofInt (rndOf x) (wOf x b).toInt) ∧
      DoubleDoes e a (.fcvtDF e a b) (fun x => f72.cvt (rndOf x) (s36 x b))) ∧
    (b % 2 = 0 →
      FixDoes e a (.fixD e a b) (fun x => fixOf (rndOf x) (s72 x b)) ∧
      SingleDoes e a (.fcvtFD e a b) (fun x => f36.cvt (rndOf x) (s72 x b)))

/-- R145: the encodings that the engine produces: 0 of each sign, 1 and -1, the smallest normal, the largest finite value,
infinity, and the default NaN, in F36 and in the two words of F72. -/
def Obligations.FormatEncodings : Prop :=
  f36.encZero false = 0 ∧ f36.encZero true = 0o400000000000 ∧
  f36.enc (.fin false 1 0) = 0o177400000000 ∧ f36.enc (.fin true 1 0) = 0o577400000000 ∧
  f36.enc (.fin false 1 (-254)) = 0o000400000000 ∧ f36.encMax false = 0o377377777777 ∧
  f36.encInf false = 0o377400000000 ∧ f36.defNaN = 0o377600000000 ∧
  f72.encZero false = 0 ∧ f72.encZero true = 0o400000000000 * 2 ^ 36 ∧
  f72.enc (.fin false 1 0) = 0o177740000000 * 2 ^ 36 ∧ f72.enc (.fin true 1 0) = 0o577740000000 * 2 ^ 36 ∧
  f72.enc (.fin false 1 (-2046)) = 0o000040000000 * 2 ^ 36 ∧
  f72.encMax false = 0o377737777777 * 2 ^ 36 + 0o777777777777 ∧
  f72.encInf false = 0o377740000000 * 2 ^ 36 ∧ f72.defNaN = 0o377760000000 * 2 ^ 36

/-- R146, R148: rounding is exact where the value fits: the encoding of a finite value that the format holds decodes to that
value, in every rounding direction and without a flag. -/
def Sys2Proof.Claims.RoundingIsExact : Prop :=
  ∀ f ∈ [f36, f72], ∀ rnd, rnd < 4 → ∀ x, x < 2 ^ f.width → ∀ sg m ex, f.decode x = .fin sg m ex →
    f.round rnd sg m ex false = (x, 0)

/-- The floating-point instructions, and their rounding: the statements above together.
The model's own choices and readings in it: log entry 10. -/
def Obligations.FloatResults : Prop := Sys2Proof.Claims.SingleFloatResults ∧ Sys2Proof.Claims.DoubleFloatResults ∧ Sys2Proof.Claims.RoundingIsExact

namespace Sys2Proof.Claims

/-- As `Ran`, and every register but the program counter as before. -/
def RanQuietly (e n : Nat) (s t : State) : Prop :=
  Ran e n s t ∧ (t.e e).regs.w = (s.e e).regs.w ∧ (t.e e).regs.ph = (s.e e).regs.ph ∧ (t.e e).regs.pl = (s.e e).regs.pl ∧
    (t.e e).regs.st = (s.e e).regs.st

/-- The engine has detected this exception, and its registers are as before. -/
def Raises (e : Nat) (vec cause ret : Nat) (s t : State) : Prop :=
  OnlyEngine e s t ∧ (t.e e).regs = (s.e e).regs ∧
    (t.e e).pipe.exc = some { vec := vec, cause := cause, seg := 0, off := 0, ret := ret, ds := false }

/-- What MFR reads (R71, R72, R594): special register n of engine e. -/
def special (s : State) (e n : Nat) : Option Word :=
  let x := (s.e e).regs
  if n < 16 then some (wOf x n)
  else if n = 0o20 then some x.ph
  else if n = 0o21 then some x.pl
  else if n = 0o22 then some x.st
  else if n = 0o23 then some x.spc
  else if n = 0o24 then some x.cs
  else if n = 0o25 then some x.tid
  else if n = 0o26 then some x.ectl
  else if n = 0o27 then some x.sad
  else if 0o30 ≤ n ∧ n ≤ 0o37 then some (tget 0 x.d (n - 0o30))
  else if n = 0o40 then some x.finfo
  else if n = 0o41 then some x.foff
  else if n = 0o60 then
    some (if fld (s.cg bootBlk) 0 1 = 2 then tget (dbgReset n) x.dbg n &&& ~~~ BitVec.ofNat 36 (2 ^ 21) else tget (dbgReset n) x.dbg n)
  else if 0o61 ≤ n ∧ n ≤ 0o66 then some (tget 0 x.dbg n)
  else if n = 0o67 then some x.dstat
  else none

/-- The bits of ST that MTR writes at a level (R72, R74). -/
def stWrites (lvl b : Nat) : Bool := decide (6 ≤ b ∧ b ≤ 17) || (decide (1 ≤ lvl) && decide (b = 2 ∨ b = 3))

/-- Registers of the branch: the target of a branch with a displacement, and of one with a register. -/
def dispTarget (x : Regs) (disp : Nat) : Nat := (((x.pc : Int) + (BitVec.ofNat 18 disp).toInt) % 2 ^ 37).toNat

/-- A branch that is taken or not, at one engine: in INTERLOCKED mode the program counter moves to the target or past the branch;
in OPEN mode it moves past the branch, whose delay slot comes next with the target for what follows it. -/
def Branched (e n : Nat) (taken : Bool) (target : Nat) (s t : State) : Prop :=
  OnlyEngine e s t ∧ (t.e e).pipe.exc = none ∧ (t.e e).regs.st = (s.e e).regs.st ∧
    ((s.e e).eff.open_ = false →
      (t.e e).regs.pc = (if taken then target else ((s.e e).regs.pc + n)) % 2 ^ 37 ∧ (t.e e).pipe.slot = none) ∧
    ((s.e e).eff.open_ = true →
      (t.e e).regs.pc = ((s.e e).regs.pc + n) % 2 ^ 37 ∧
        ∃ sl, (t.e e).pipe.slot = some sl ∧ sl.branch = (s.e e).regs.pc ∧ sl.target = if taken then some target else none)

/-- Every microword of the routine that carries out a microcoded instruction passes its check (R258, R263); `hit` says that the
instruction finds its descriptor in the descriptor cache. -/
def routineOk (s : State) (e : Nat) (hit : Bool) (i : Instr) : Prop := vendorBad s e (vendorRoutine hit i) = none

/-- Every general register but W`a` is as before, and W`a` holds v. -/
def OneW (e a : Nat) (v : Word) (s t : State) : Prop := ∀ r, (t.e e).w r = if r = a then v else (s.e e).w r

end Sys2Proof.Claims

/-- R169, R117, R157, R350: NOP; CSYNC puts every pending control write into effect; DRAIN with no divide fault due; the fences
with no store outstanding, no failure record and no invalidation queued. -/
def Sys2Proof.Claims.SynchronisingCompletes : Prop :=
  ∀ e s, ready s e 1 = true →
    Does (.nop e 0) s (RanQuietly e 1 s) ∧
    ((s.e e).pipe.divDue = none →
      Does (.drain e 0) s (RanQuietly e 1 s) ∧
      Does (.csync e 0) s (fun t => RanQuietly e 1 s t ∧ (t.e e).eff.d = (s.e e).regs.d ∧
        (t.e e).eff.open_ = bit (s.e e).regs.st 3 ∧ (t.e e).eff.pred = bit (s.e e).regs.ectl 0 ∧
        (t.e e).eff.dbg = (s.e e).regs.dbg)) ∧
    ((s.e e).mem.invq = [] → Does (.fenceL e 0) s (RanQuietly e 1 s)) ∧
    ((s.e e).mem.sb = [] → (s.e e).mem.fails = [] → Does (.fenceS e 0) s (RanQuietly e 1 s)) ∧
    ((s.e e).mem.sb = [] → (s.e e).mem.fails = [] → (s.e e).mem.invq = [] → Does (.fenceLS e 0) s (RanQuietly e 1 s))

/-- R350: FENCE.S and FENCE.LS wait while a store is outstanding; FENCE.L waits while an invalidation is queued. -/
def Sys2Proof.Claims.FencesWait : Prop :=
  ∀ e s, ready s e 1 = true →
    ((s.e e).mem.sb ≠ [] →
      Does (.fenceS e 0) s (fun t => (t.e e).regs = (s.e e).regs ∧ (t.e e).run.stall = some ⟨.fenceS e 0, .fence, true⟩) ∧
      Does (.fenceLS e 0) s (fun t => (t.e e).regs = (s.e e).regs ∧ (t.e e).run.stall = some ⟨.fenceLS e 0, .fence, true⟩)) ∧
    ((s.e e).mem.invq ≠ [] → (s.e e).mem.ctlAns = none →
      Does (.fenceL e 0) s (fun t => (t.e e).regs = (s.e e).regs ∧
        (t.e e).run.stall = some ⟨.fenceL e 0, .invals (s.e e).mem.invq.length, true⟩))

/-- NOP, CSYNC, DRAIN and the fences: the statements above together. -/
def Obligations.SynchronisingInstructions : Prop := Sys2Proof.Claims.SynchronisingCompletes ∧ Sys2Proof.Claims.FencesWait

/-- R71 to R73, R581, R594: MFR writes W`a` with the special register; the debug registers are read at M level, and in the SERVICE
lifecycle state DCTL.PFRZ reads as 0. -/
def Sys2Proof.Claims.SpecialReads : Prop :=
  ∀ e a n s v, a < 16 → n < 256 → ready s e 1 = true → special s e n = some v → (0o60 ≤ n → fld (s.e e).regs.st 0 1 = 2) →
    Does (.mfr e a n) s fun t => Ran e 1 s t ∧ OneW e a v s t ∧ (t.e e).regs.st = (s.e e).regs.st

/-- R72, R74, R141: MTR writes a general register, PH, PL (and the value that program order gives them), ST in the fields that
the level may write, SPC, and at the levels that may write them ECTL, TID and SAD in their defined bits. -/
def Sys2Proof.Claims.SpecialWrites : Prop :=
  ∀ e a s, a < 16 → ready s e 1 = true →
    let g := s.e e
    let v := g.w a
    (∀ n, n < 16 → Does (.mtr e a n) s fun t => Ran e 1 s t ∧ OneW e n v s t ∧ (t.e e).regs.st = g.regs.st) ∧
    Does (.mtr e a 0o20) s (fun t => Ran e 1 s t ∧ (t.e e).regs.ph = v ∧ (t.e e).pipe.accH = v ∧ (t.e e).regs.w = g.regs.w) ∧
    Does (.mtr e a 0o21) s (fun t => Ran e 1 s t ∧ (t.e e).regs.pl = v ∧ (t.e e).pipe.accL = v ∧ (t.e e).regs.w = g.regs.w) ∧
    Does (.mtr e a 0o22) s (fun t => Ran e 1 s t ∧ (t.e e).regs.w = g.regs.w ∧
      ∀ b, b < 36 → bit (t.e e).regs.st b = if stWrites (fld g.regs.st 0 1) b then bit v b else bit g.regs.st b) ∧
    Does (.mtr e a 0o23) s (fun t => OnlyEngine e s t ∧
      (t.e e).regs = { g.regs with spc := v, pc := (g.regs.pc + 1) % 2 ^ 37 }) ∧
    (1 ≤ fld g.regs.st 0 1 → Does (.mtr e a 0o26) s (fun t => OnlyEngine e s t ∧
      (t.e e).regs = { g.regs with ectl := v &&& maskW 0 0, pc := (g.regs.pc + 1) % 2 ^ 37 } ∧ (t.e e).eff = g.eff)) ∧
    (fld g.regs.st 0 1 = 2 →
      Does (.mtr e a 0o25) s (fun t => OnlyEngine e s t ∧
        (t.e e).regs = { g.regs with tid := v &&& maskW 0 27, pc := (g.regs.pc + 1) % 2 ^ 37 }) ∧
      Does (.mtr e a 0o27) s (fun t => OnlyEngine e s t ∧
        (t.e e).regs = { g.regs with sad := v &&& maskW 0 15, pc := (g.regs.pc + 1) % 2 ^ 37 }))

/-- MFR and MTR: the statements above together.
The model's own choices and readings in it: log entry 21. -/
def Obligations.SpecialRegisters : Prop := Sys2Proof.Claims.SpecialReads ∧ Sys2Proof.Claims.SpecialWrites

/-- R72, R73, R81: an MTR of TID or SAD below M level is a privilege fault; one of CS, D0 to D7, FINFO, FOFF or an unassigned
number, and an MFR of an unassigned number, an illegal-instruction fault. No register changes. -/
def Sys2Proof.Claims.SpecialRefused : Prop :=
  ∀ e a n s, a < 16 → n < 256 → ready s e 1 = true →
    (fld (s.e e).regs.st 0 1 < 2 → n = 0o25 ∨ n = 0o27 →
      Does (.mtr e a n) s (Raises e 6 2 (s.e e).regs.pc s)) ∧
    (n = 0o24 ∨ (0o30 ≤ n ∧ n < 0o60) ∨ 0o70 ≤ n → Does (.mtr e a n) s (Raises e 5 0o11 (s.e e).regs.pc s)) ∧
    ((0o42 ≤ n ∧ n < 0o60) ∨ 0o70 ≤ n → Does (.mfr e a n) s (Raises e 5 0o11 (s.e e).regs.pc s))

/-- R171: RDT writes the seconds and the nanoseconds of device time of one instant to a register pair. -/
def Obligations.ReadDeviceTime : Prop :=
  ∀ e a s, a < 16 → a % 2 = 0 → ready s e 1 = true →
    Does (.rdt e a 0) s fun t => Ran e 1 s t ∧ (t.e e).regs.st = (s.e e).regs.st ∧ ∀ r, (t.e e).w r =
      if r = a then BitVec.ofNat 36 (s.net.devTime / 64 / 10 ^ 9)
      else if r = a + 1 then BitVec.ofNat 36 (s.net.devTime % (64 * 10 ^ 9)) else (s.e e).w r

/-- R169, R174, R216, R129, R220: the traps and an unassigned opcode: the exception is detected, with the address after the trap, or
of the unassigned opcode, as the return point, and no register changes. -/
def Sys2Proof.Claims.TrapsAreDetected : Prop :=
  ∀ e imm s, imm < 256 → ready s e 1 = true →
    (s.sys.attached = false → Does (.brk e 0) s (Raises e 0o15 0 ((s.e e).regs.pc + 1) s)) ∧
    Does (.svc e 0 imm) s (Raises e 0o16 (imm % 64) ((s.e e).regs.pc + 1) s) ∧
    Does (.mvc e 0 imm) s (Raises e 4 (imm % 64) ((s.e e).regs.pc + 1) s) ∧
    Does (.unassignedOpcode e false) s (Raises e 5 1 (s.e e).regs.pc s) ∧
    (ready s e 2 = true → Does (.unassignedOpcode e true) s (Raises e 5 1 (s.e e).regs.pc s))

/-- R128, R129: a field that is not used and is not zero, and an odd field of a pair, are illegal-instruction faults with causes
02 and 03. -/
def Sys2Proof.Claims.IllegalFields : Prop :=
  ∀ e a b u s, a < 16 → b < 16 → 0 < u → u < 256 →
    (ready s e 1 = true →
      (∀ i ∈ [Instr.nop e u, .csync e u, .drain e u, .fenceL e u, .fenceS e u, .fenceLS e u, .retx e u, .brk e u],
        Does i s (Raises e 5 2 (s.e e).regs.pc s)) ∧
      (u < 16 → Does (.fret e a u) s (Raises e 5 2 (s.e e).regs.pc s)) ∧
      (a % 2 = 1 → ∀ i ∈ [Instr.faddD e a b, .fsubD e a b, .fmulD e a b, .fdivD e a b, .fsqrtD e a b, .fnegD e a b, .fabsD e a b,
          .fltD e a b, .fcvtDF e a b, .fcmpD e a b, .rdt e a 0], Does i s (Raises e 5 3 (s.e e).regs.pc s))) ∧
    (readyBranch s e 1 = true → u < 16 → Does (.jr e a u) s (Raises e 5 2 (s.e e).regs.pc s)) ∧
    ∀ d, d < 262144 →
      (ready s e 2 = true → ∀ i ∈ [Instr.ldi e a u d, .lui e a u d, .cmpi e a u d], Does i s (Raises e 5 2 (s.e e).regs.pc s)) ∧
      (readyBranch s e 2 = true → ∀ i ∈ [Instr.call e a u d, .dbnz e a u d, .b e a u d],
        Does i s (Raises e 5 2 (s.e e).regs.pc s))

/-- The exceptions that instructions raise by what they are: the statements above together.
The model's own choices and readings in it: log entries 10 and 25. -/
def Obligations.DetectedFaults : Prop := Sys2Proof.Claims.SpecialRefused ∧ Sys2Proof.Claims.TrapsAreDetected ∧ Sys2Proof.Claims.IllegalFields

/-- R160, R161, R189: the branches: B by its condition on the flags, CALL, DBNZ, JR and CALLR, with their links and their
targets. In OPEN mode the link lands in the delay slot. Where a breakpoint stands at the delay slot in OPEN mode, the branch halts
before it issues (R595). -/
def Obligations.BranchResults : Prop :=
  ∀ e a b cond disp s, a < 16 → b < 16 → cond < 16 → disp < 262144 →
    let g := s.e e
    (readyBranch s e 2 = true →
      Does (.b e cond 0 disp) s (fun t =>
        Branched e 2 (condTrue cond g.regs.st) (dispTarget g.regs disp) s t ∧ (t.e e).regs.w = g.regs.w) ∧
      Does (.call e a 0 disp) s (fun t => Branched e 2 true (dispTarget g.regs disp) s t ∧
        (g.eff.open_ = false → OneW e a (BitVec.ofNat 36 (g.regs.pc + 2)) s t) ∧
        (g.eff.open_ = true → (t.e e).regs.w = g.regs.w)) ∧
      Does (.dbnz e a 0 disp) s (fun t =>
        Branched e 2 (decide (g.w a ≠ 1)) (dispTarget g.regs disp) s t ∧ OneW e a (g.w a - 1) s t)) ∧
    (readyBranch s e 1 = true →
      Does (.jr e a 0) s (fun t => Branched e 1 true (g.w a).toNat s t ∧ (t.e e).regs.w = g.regs.w) ∧
      Does (.callr e a b) s (fun t => Branched e 1 true (g.w b).toNat s t ∧
        (g.eff.open_ = false → OneW e a (BitVec.ofNat 36 (g.regs.pc + 1)) s t) ∧
        (g.eff.open_ = true → (t.e e).regs.w = g.regs.w))) ∧
    ∀ n, g.eff.open_ = true →
      (ready s e 2 = true → bpMatch s e 2 = some n → ∀ i ∈ [Instr.b e cond 0 disp, .call e a 0 disp, .dbnz e a 0 disp],
        Does i s fun t => OnlyEngine e s t ∧ (t.e e).regs = g.regs ∧ (t.e e).run.haltReq = some (4, n)) ∧
      (ready s e 1 = true → bpMatch s e 1 = some n → ∀ i ∈ [Instr.jr e a 0, .callr e a b],
        Does i s fun t => OnlyEngine e s t ∧ (t.e e).regs = g.regs ∧ (t.e e).run.haltReq = some (4, n))

/-- R94, R163, R531: the far transfers and SEGLD through a descriptor in the descriptor cache, under the new index of a remapped
code-type segment. -/
def Sys2Proof.Claims.FarTransfers : Prop :=
  ∀ e a b s x, a < 16 → b < 16 → ready s e 1 = true →
    let g := s.e e
    let w := g.w b
    let tn := if fld g.regs.st 0 1 = 2 then fld w 0 11 else fld g.regs.tid 0 11
    let ix := fld w 12 19
    (g.dcFind tn (remapIdx s e tn ix) = some x → fld x.d1 0 2 = 2 → fld x.d1 6 17 = tn → (fld g.regs.st 0 1 = 2 → tn = 0) →
      (routineOk s e true (.fjmp e a b) → Does (.fjmp e a b) s fun t => OnlyEngine e s t ∧ (t.e e).regs.pc = (g.w a).toNat % 2 ^ 37 ∧
        (t.e e).regs.cs = place 0 11 tn ||| place 12 19 ix ||| place 20 20 1 ∧ (t.e e).regs.w = g.regs.w ∧
        (t.e e).regs.st = g.regs.st) ∧
      (routineOk s e true (.fcall e a b) → Does (.fcall e a b) s fun t => OnlyEngine e s t ∧ (t.e e).regs.pc = (g.w a).toNat % 2 ^ 37 ∧
        (t.e e).regs.cs = place 0 11 tn ||| place 12 19 ix ||| place 20 20 1 ∧
        OneW e 14 (place 0 7 (fld g.regs.cs 12 19) ||| place 8 35 (g.regs.pc + 1)) s t)) ∧
    (let tr := if fld g.regs.st 0 1 = 2 then 0 else fld g.regs.tid 0 11
     g.dcFind tr (remapIdx s e tr (fld (g.w a) 0 7)) = some x → routineOk s e true (.fret e a 0) →
      Does (.fret e a 0) s (fun t => OnlyEngine e s t ∧ (t.e e).regs.pc = fld (g.w a) 8 35 ∧
        (t.e e).regs.cs = place 0 11 tr ||| place 12 19 (fld (g.w a) 0 7) ||| place 20 20 1 ∧ (t.e e).regs.w = g.regs.w)) ∧
    (a < 8 → g.dcFind tn (remapIdx s e tn ix) = some x → ¬ (fld x.d1 0 2 = 0 ∨ fld x.d1 0 2 = 6 ∨ fld x.d1 0 2 = 7) →
      fld x.d1 6 17 = tn → routineOk s e true (.segld e a b) →
      Does (.segld e a b) s (fun t => OnlyEngine e s t ∧ (t.e e).regs.pc = (g.regs.pc + 1) % 2 ^ 37 ∧
        (t.e e).regs.w = g.regs.w ∧ (t.e e).eff = g.eff ∧
        ∀ k, tget 0 (t.e e).regs.d k = if k = a then place 0 11 tn ||| place 12 19 ix ||| place 20 20 1 else tget 0 g.regs.d k))

/-- R94, R88: SEGLD of a descriptor that is absent or another tenant's is a segment fault with cause 02. -/
def Sys2Proof.Claims.SegldFaults : Prop :=
  ∀ e a b s x, a < 8 → b < 16 → ready s e 1 = true →
    let g := s.e e
    let tn := if fld g.regs.st 0 1 = 2 then fld (g.w b) 0 11 else fld g.regs.tid 0 11
    g.dcFind tn (remapIdx s e tn (fld (g.w b) 12 19)) = some x → routineOk s e true (.segld e a b) →
      (fld x.d1 0 2 = 0 ∨ fld x.d1 0 2 = 6 ∨ fld x.d1 0 2 = 7 ∨ fld x.d1 6 17 ≠ tn) →
    Does (.segld e a b) s fun t => OnlyEngine e s t ∧ (t.e e).regs = g.regs ∧
      (t.e e).pipe.exc = some { vec := 7, cause := 2, seg := a, off := 0, ret := g.regs.pc, ds := false }

/-- FJMP, FCALL, FRET and SEGLD: the statements above together.
The model's own choices and readings in it: log entries 20 and 60. -/
def Obligations.FarTransfersAndSegld : Prop := Sys2Proof.Claims.FarTransfers ∧ Sys2Proof.Claims.SegldFaults

/-- R164 to R166: a repeat of count n ≥ 1 sets ST.RC and ST.RU; one of count 0 makes the next instruction be skipped; one before
an instruction that cannot be repeated is an illegal-instruction fault with cause 05.
The model's own choices and readings in it: log entry 24. -/
def Obligations.RepeatResults : Prop :=
  ∀ e a imm s, a < 16 → imm < 256 → ready s e 1 = true →
    let n := 256 * a + imm
    (n ≠ 0 → ∀ (i : Instr) (u : Bool), (i, u) ∈ [(Instr.rpt e a imm .repeatable, false), (.rptu e a imm .repeatable, true)] →
      Does i s (fun t => Ran e 1 s t ∧ (t.e e).regs.w = (s.e e).regs.w ∧ fld (t.e e).regs.st 24 35 = n ∧ bit (t.e e).regs.st 5 = u ∧
        ∀ b, b < 24 → b ≠ 5 → bit (t.e e).regs.st b = bit (s.e e).regs.st b)) ∧
    (n = 0 → ∀ i ∈ [Instr.rpt e a imm .repeatable, .rptu e a imm .repeatable],
      Does i s (fun t => RanQuietly e 1 s t ∧ (t.e e).pipe.skip = true)) ∧
    ∀ k ∈ [RepClass.other, .overwritesBase], ∀ i ∈ [Instr.rpt e a imm k, .rptu e a imm k],
      Does i s (Raises e 5 5 (s.e e).regs.pc s)

namespace Sys2Proof.Claims

/-- The lowest level at which an exception can be taken (R217). -/
def lowest (vec : Nat) : Nat :=
  if vec ∈ [0, 1, 2, 3, 4, 0o40, 0o41] then 2 else if vec ∈ [0o13, 0o14, 0o15] then 0 else 1

/-- Whether descriptor i of the engine's tenant is present, where the descriptor cache knows it. -/
def present (s : State) (e i : Nat) : Option Bool :=
  let g := s.e e
  let t := fld g.regs.tid 0 11
  (g.dcFind t (remapIdx s e t i)).map fun x => !decide (fld x.d1 0 2 ∈ [0, 6, 7])

/-- The target level of an exception (R219): from the level of the code and the lowest level of the vector upward, the first
that the tenant has vectors for. -/
def targetLevel (s : State) (e vec : Nat) : Option Nat :=
  let g := s.e e
  let m := max (fld g.regs.st 0 1) (lowest vec)
  let super := (present s e 0).map fun b => if b then 1 else 2
  if m = 2 ∨ fld g.regs.tid 0 11 = 0 then some 2
  else if m = 1 then super
  else match present s e 1 with
    | some true => some 0
    | some false => super
    | none => none

/-- The sixteen words of the frame (R103). -/
def savedFrame (x : Regs) (ds : Bool) (k : Nat) : Word :=
  if k < 8 then wOf x k
  else if k = 8 then (if ds then x.st ||| BitVec.ofNat 36 (2 ^ 31) else x.st)
  else if k = 9 then x.spc else if k = 10 then x.ph else if k = 11 then x.pl else if k = 12 then x.tid else 0

/-- Save areas by level (R102) and their depths in SAD. -/
def areaOf (lvl : Nat) : Nat := if lvl = 2 then 0o76000 else if lvl = 1 then 0o76400 else 0o77000
def depthIn (sad : Word) (lvl : Nat) : Nat := if lvl = 2 then fld sad 0 4 else if lvl = 1 then fld sad 5 9 else fld sad 10 14

/-- Exception x has been entered at level `lvl`, with the frame at near-store offset `base` (R76, R78, R103, R220, R226). -/
def Entered (e lvl base tn ix : Nat) (x : Exc) (s t : State) : Prop :=
  let g := s.e e
  let h := t.e e
  h.pipe.exc = none ∧ h.pipe.slot = none ∧ h.mem.resv = none ∧ h.eff.open_ = false ∧
    h.regs.pc = 8 * x.vec ∧ h.regs.cs = place 0 11 tn ||| place 12 19 ix ||| place 20 20 1 ∧
    fld h.regs.st 0 1 = lvl ∧ bit h.regs.st 2 = true ∧ (∀ b, 6 ≤ b → b ≤ 23 → bit h.regs.st b = bit g.regs.st b) ∧
    (∀ b, b ∈ [3, 4, 5] ∨ (24 ≤ b ∧ b ≤ 35) → bit h.regs.st b = false) ∧
    fld h.regs.spc 0 7 = fld g.regs.cs 12 19 ∧ fld h.regs.spc 8 35 = x.ret % 2 ^ 28 ∧
    fld h.regs.finfo 0 5 = x.vec % 64 ∧ fld h.regs.finfo 6 11 = x.cause % 64 ∧ fld h.regs.finfo 12 15 = x.seg % 16 ∧
    fld h.regs.finfo 16 17 = fld g.regs.st 0 1 ∧ h.regs.foff = x.off ∧
    h.regs.w = g.regs.w ∧ h.regs.ph = g.regs.ph ∧ h.regs.pl = g.regs.pl ∧ h.regs.tid = g.regs.tid ∧ h.regs.ectl = g.regs.ectl ∧
    h.regs.d = g.regs.d ∧
    (∀ o, tget 0 h.mem.near o = if base ≤ o ∧ o < base + 16 then savedFrame g.regs x.ds (o - base) else tget 0 g.mem.near o) ∧
    (∀ m, m ≠ e → t.e m = s.e m) ∧ t.mem = s.mem ∧ t.rel = s.rel ∧ t.net = s.net ∧ t.wel = s.wel ∧ t.boot = s.boot ∧ t.sys = s.sys

end Sys2Proof.Claims

/-- The first instruction of the handler of a vector, in the vector segment of descriptor d, hits the L1 instruction cache and is
not poisoned (R183, R227). -/
def Sys2Proof.Claims.vectorLine (g : Engine) (vec : Nat) (d : DcEntry) : Prop :=
  ∃ x, g.l1iFind ((fld d.d0 1 35 + 4 * vec) / 8) = some x ∧ x.pois = false

/-- R76, R78, R103, R217, R219, R220, R226: the entry of a detected exception saves the frame at the depth of the target level,
writes SPC, FINFO and FOFF, raises the level with MASK set, and goes on at 10 (octal) times the vector in the vector segment of the
level; the depth in SAD grows by one and the others stay.
The model's own choices and readings in it: log entries 10 and 66. -/
def Obligations.ExceptionEntryTakesTheException : Prop :=
  ∀ e s x lvl d, e < 144 → canEnter (s.e e) = true → (s.e e).pipe.exc = some x → x.begun = false → (s.e e).pipe.pend = [] →
    (s.e e).pipe.divDue = none → (s.e e).pipe.stLoss = [] → fld (s.e e).regs.st 0 1 ≤ 2 → x.vec ≠ 1 → x.vec ≠ 3 → x.vec < 64 →
    bit (s.e e).regs.sad 15 = false →
    targetLevel s e x.vec = some lvl →
    let g := s.e e
    let tn := if lvl = 2 then 0 else fld g.regs.tid 0 11
    let ix := if lvl = 0 then 1 else 0
    depthIn g.regs.sad lvl < 15 → g.dcFind tn (remapIdx s e tn ix) = some d → vecOk s lvl x.vec d = true → vectorLine g x.vec d →
    Does (.exceptionEntry e) s fun t =>
      Entered e lvl (areaOf lvl + 16 * depthIn g.regs.sad lvl) tn ix x s t ∧
        (∀ l, l < 3 → depthIn (t.e e).regs.sad l = if l = lvl then depthIn g.regs.sad l + 1 else depthIn g.regs.sad l) ∧
        bit (t.e e).regs.sad 15 = false

/-- R104, R228: a fault of an entry enters vector 01 at M level with frame 15 of its save area; SAD.DF is set and the depths stay;
FINFO.CAUSE is the vector that failed, as where the save area of the target level is full. -/
def Sys2Proof.Claims.DoubleFaultEntry : Prop :=
  ∀ e s x d, e < 144 → canEnter (s.e e) = true → (s.e e).pipe.exc = some x → (s.e e).pipe.pend = [] →
    (s.e e).pipe.divDue = none → (s.e e).pipe.stLoss = [] → bit (s.e e).regs.sad 15 = false →
    (s.e e).dcFind 0 (remapIdx s e 0 0) = some d → vecOk s 2 1 d = true → vectorLine (s.e e) 1 d →
    let ends := fun (y : Exc) (t : State) =>
      Entered e 2 0o76360 0 0 y s t ∧ ∀ b, b < 36 → bit (t.e e).regs.sad b = (bit (s.e e).regs.sad b || decide (b = 15))
    (x.vec = 1 → Does (.exceptionEntry e) s (ends x)) ∧
    ∀ lvl, x.vec ≠ 1 → x.vec ≠ 3 → x.vec < 64 → targetLevel s e x.vec = some lvl → 15 ≤ depthIn (s.e e).regs.sad lvl →
      Does (.exceptionEntry e) s (ends { x with vec := 1, cause := x.vec, seg := 0 })

/-- R229, R513: a fault while SAD.DF is 1 resets the engine, whose recovery is due with cause 03. -/
def Sys2Proof.Claims.ThirdFaultResetsTheEngine : Prop :=
  ∀ e s x, e < 144 → canEnter (s.e e) = true → (s.e e).pipe.exc = some x → bit (s.e e).regs.sad 15 = true →
    Does (.exceptionEntry e) s fun t =>
      (t.e e).run.inReset = true ∧ (t.e e).regs = { Regs.reset with dbg := (s.e e).regs.dbg, dstat := (s.e e).regs.dstat } ∧
        (t.e e).mem.near = (s.e e).mem.near ∧ (t.e e).cstore = (s.e e).cstore ∧
        t.wel.failed = s.wel.failed ++ [{ e := e, cause := 3 }] ∧ ∀ m, m ≠ e → t.e m = s.e m

/-- What a fault of an exception entry does: the statements above together.
The model's own choices and readings in it: log entries 10 and 44. -/
def Obligations.FailedEntries : Prop := Sys2Proof.Claims.DoubleFaultEntry ∧ Sys2Proof.Claims.ThirdFaultResetsTheEngine

/-- Word k of the frame at `base` as RETX reads it; one that the near store cannot correct has a free value (log entry 61). -/
def Sys2Proof.Claims.frameWord (s : State) (e base k : Nat) : Word :=
  if base + k ∈ (s.e e).mem.nbad then Config.freeNear s.freeCtr k else (s.e e).nearGet (base + k)

/-- R230: RETX restores the frame, takes CS and the program counter from SPC, and takes one frame off the level's depth, or clears
SAD.DF at M level while it is 1. Reserved bits of ST and TID read zero (R6). -/
def Sys2Proof.Claims.ReturnFromException : Prop :=
  ∀ e s, ready s e 1 = true → (s.e e).pipe.divDue = none → fld (s.e e).regs.st 0 1 ≤ 2 →
    let g := s.e e
    let l := fld g.regs.st 0 1
    let df := decide (l = 2) && bit g.regs.sad 15
    let base := areaOf l + 16 * (if df then 15 else depthIn g.regs.sad l - 1)
    let fr := frameWord s e base
    (df = false → depthIn g.regs.sad l ≠ 0) → fld (fr 8) 0 1 ≤ l →
    (l < 2 → fr 12 = g.regs.tid) →
    Does (.retx e 0) s fun t =>
      let h := t.e e
      OnlyEngine e s { t with freeCtr := s.freeCtr } ∧ (∀ k, k < 16 → h.w k = if k < 8 then fr k else g.w k) ∧
        (∀ b, b < 36 → bit h.regs.st b = (bit (fr 8) b && !decide (18 ≤ b ∧ b ≤ 23))) ∧ h.regs.ph = fr 10 ∧
        h.regs.pl = fr 11 ∧ (∀ b, b < 36 → bit h.regs.tid b = (bit (fr 12) b && decide (b ≤ 27))) ∧ h.regs.spc = fr 9 ∧ h.regs.pc = fld g.regs.spc 8 35 ∧
        h.regs.cs = place 0 11 (if fld (fr 8) 0 1 = 2 then 0 else fld (fr 12) 0 11) ||| place 12 19 (fld g.regs.spc 0 7) |||
          place 20 20 1 ∧
        bit h.regs.sad 15 = (bit g.regs.sad 15 && !df) ∧
        (∀ m, m < 3 → depthIn h.regs.sad m =
          if m = l ∧ df = false then depthIn g.regs.sad m - 1 else depthIn g.regs.sad m) ∧
        h.eff.open_ = bit (fr 8) 3 ∧ h.eff.d = g.regs.d ∧ h.mem.near = g.mem.near

/-- R230: the return faults of RETX, in the order of their checks, and the privilege faults of STEAL and SEGINV (R81, R220):
no register changes. -/
def Sys2Proof.Claims.ReturnAndPrivilegeFaults : Prop :=
  ∀ e s, ready s e 1 = true → fld (s.e e).regs.st 0 1 ≤ 2 →
    let g := s.e e
    let l := fld g.regs.st 0 1
    let df := decide (l = 2) && bit g.regs.sad 15
    let base := areaOf l + 16 * (if df then 15 else depthIn g.regs.sad l - 1)
    let fr := frameWord s e base
    (df = false → depthIn g.regs.sad l = 0 → Does (.retx e 0) s (Raises e 0o14 3 g.regs.pc s)) ∧
    (let raises := fun (c : Nat) (t : State) => Raises e 0o14 c g.regs.pc s { t with freeCtr := s.freeCtr }
     (df = false → depthIn g.regs.sad l ≠ 0) →
      (fld (fr 8) 0 1 = 3 → Does (.retx e 0) s (raises 2)) ∧
      (l < fld (fr 8) 0 1 → fld (fr 8) 0 1 < 3 → Does (.retx e 0) s (raises 1)) ∧
      (fld (fr 8) 0 1 ≤ l → l < 2 → fr 12 ≠ g.regs.tid → Does (.retx e 0) s (raises 4))) ∧
    (l < 2 → Does (.steal e 0) s (Raises e 6 1 g.regs.pc s) ∧
      ∀ a b, a < 16 → b < 16 → Does (.seginv e a b) s (Raises e 6 1 g.regs.pc s))

/-- RETX, and the faults of privileged instructions: the statements above together.
The model's own choices and readings in it: log entries 22 and 61. -/
def Obligations.ReturnsAndTheirFaults : Prop := Sys2Proof.Claims.ReturnFromException ∧ Sys2Proof.Claims.ReturnAndPrivilegeFaults

namespace Sys2Proof.Claims

/-- The selector of a segment field (R84): D0 to D7 as in effect, or CS. -/
def selOf (g : Engine) (seg : Nat) : Word := if seg = 8 then g.regs.cs else tget 0 g.eff.d seg

/-- The offset of an access (R84). -/
def offOf (g : Engine) (b disp : Nat) : Int := ((g.w b).toNat : Int) + (BitVec.ofNat 18 disp).toInt

/-- The answer of the checks of R91 for an access of n words. -/
def checked (s : State) (e b seg disp n : Nat) (acc : Acc) : SegRes :=
  segCheck s e (selOf (s.e e) seg) (fld (s.e e).regs.st 0 1) (fld (s.e e).regs.tid 0 11) acc (offOf (s.e e) b disp) n

/-- As `OnlyEngine`, with the home slices left aside. -/
def OnlyEngineHome (e : Nat) (s t : State) : Prop := OnlyEngine e s { t with home := s.home }

/-- A long instruction has executed without an exception: its program counter, PH, PL and predictor-independent controls. -/
def LongRan (e : Nat) (s t : State) : Prop :=
  OnlyEngineHome e s t ∧ (t.e e).regs.pc = ((s.e e).regs.pc + 2) % 2 ^ 37 ∧ (t.e e).pipe.exc = none ∧ (t.e e).run.stall = none ∧
    (t.e e).regs.ph = (s.e e).regs.ph ∧ (t.e e).regs.pl = (s.e e).regs.pl ∧ rest (t.e e).regs = rest (s.e e).regs

/-- The near store after n words from `ws` are written from offset o on (R101, R365): a line whose tag was another tenant's has
its other words zeroed. -/
def NearWritten (g h : Engine) (o : Nat) (ws : List Word) : Prop :=
  (∀ a, tget 0 h.mem.near a =
    if o ≤ a ∧ a < o + ws.length then ws.getD (a - o) 0
    else if (∃ k, k < ws.length ∧ (o + k) / 8 = a / 8) ∧ tget 0 g.mem.ntag (a / 8) ≠ fld g.regs.tid 0 11 then 0
    else tget 0 g.mem.near a) ∧
    ∀ k, k < ws.length → tget 0 h.mem.ntag ((o + k) / 8) = fld g.regs.tid 0 11 ∧ o + k ∉ h.mem.nbad

/-- The granule of a word (R120, R125). -/
def granule (s : State) (tn : Nat) (near : Bool) (a : Nat) : Granule :=
  let n := 2 ^ fld (s.cg rRSVCFG) 0 1
  { tenant := tn, first := a / 8 / n * n, size := n, near := near }

end Sys2Proof.Claims

/-- R158, R203, R204, R120: LD, LDD, LDR and LDR.D, where the access passes its checks and the words stand in the near store, or in the
store buffer or the L1 data cache: the words reach the registers; LDR and LDR.D also set the reservation and ask the homes of the
granule's lines to watch, unless a write of the line that its home has accepted is under way: the reservation is then lost (R122). -/
def Obligations.LoadResults : Prop :=
  ∀ e a b seg disp s, a < 16 → b < 16 → seg < 9 → disp < 262144 → ready s e 2 = true →
    ∀ n i ldr, (n, i, ldr) ∈ [(1, Instr.ld e a b seg disp, false), (2, .ldd e a b seg disp, false), (1, .ldr e a b seg disp, true),
      (2, .ldrD e a b seg disp, true)] → (n = 2 → a % 2 = 0) →
    ∀ typ pas ws, checked s e b seg disp n (if ldr then .ldr else .load) = .ok typ pas →
      (typ = 3 ∧ (∀ o ∈ pas, o ∉ (s.e e).mem.nbad ∨ (s.e e).nearOther o = true) ∧ ws = pas.map (s.e e).nearGet) ∨
        (typ ≠ 3 ∧ inCtl (pas.headD 0) = false ∧ (s.e e).dataWords 0 pas = .ok ws) →
      Does i s fun t =>
        let g := s.e e
        let h := t.e e
        LongRan e s t ∧ (∀ r, (final h).w r = if a ≤ r ∧ r < a + n then ws.getD (r - a) 0 else g.w r) ∧
          (final h).regs.st = g.regs.st ∧ h.mem.near = g.mem.near ∧ h.mem.sb = g.mem.sb ∧ h.mem.watch = g.mem.watch ∧
          (∀ l, h.l1Any l = g.l1Any l) ∧
          (ldr = false → h.mem.resv = g.mem.resv ∧ OnlyEngine e s t) ∧
          (ldr = true → typ ≠ 3 ∧ writeUnderWay s e (pas.headD 0 / 8) = true → h.mem.resv = none) ∧
          (ldr = true → typ = 3 ∨ writeUnderWay s e (pas.headD 0 / 8) = false → (h.mem.resv.map Reserv.gran = some (granule s (fld g.regs.tid 0 11) (typ = 3) (pas.headD 0))) ∧
            (typ ≠ 3 → { e := e, idx := 0, line := pas.headD 0 / 8 } ∈ t.home.watches ∧
              ∀ l, l ∈ (granule s (fld g.regs.tid 0 11) false (pas.headD 0)).lines → l ≠ pas.headD 0 / 8 →
                Msg.watch e l 0 ∈ t.home.net))

/-- R159, R201, R203, R204, R299: ST and STD to the near store at once; to memory through the store buffer, where a load of the
engine then finds the words; to the control window through an entry of its own, or, for an activation, deferred. -/
def Obligations.StoreResults : Prop :=
  ∀ e a b seg disp s, a < 16 → b < 16 → seg < 9 → disp < 262144 → ready s e 2 = true →
    ∀ n i, (n, i) ∈ [(1, Instr.st e a b seg disp), (2, .std e a b seg disp)] → (n = 2 → a % 2 = 0) →
    ∀ typ pas, checked s e b seg disp n .store = .ok typ pas →
      let g := s.e e
      let ws := (List.range n).map fun k => g.w (a + k)
      let a0 := pas.headD 0
      let plain := fun (t : State) => LongRan e s t ∧ OnlyEngine e s t ∧ (t.e e).regs.w = g.regs.w ∧ (t.e e).regs.st = g.regs.st ∧
        (t.e e).mem.l1d = g.mem.l1d ∧ (t.e e).mem.resv = g.mem.resv ∧ (t.e e).mem.watch = g.mem.watch
      (typ = 3 → Does i s fun t => plain t ∧ NearWritten g (t.e e) a0 ws ∧ (t.e e).mem.sb = g.mem.sb) ∧
      (typ ≠ 3 → inCtl a0 = false → g.mem.sb.length + g.sbNeed (if typ = 2 then .code else .data) pas ≤ 8 →
        (∀ x ∈ g.mem.sb, ∀ p ∈ pas, x.kind = .control ∨ x.tenant ≠ fld g.regs.tid 0 11 ∨ x.line ≠ p / 8 ∨
          x.takes (p / 8) (fld g.regs.tid 0 11) (if typ = 2 then .code else .data) = true) →
        Does i s fun t => plain t ∧ (t.e e).mem.near = g.mem.near ∧
          (∀ k, k < n → (t.e e).sbWord (pas.getD k 0) = some (ws.getD k 0)) ∧
          ∀ x ∈ g.mem.sb, (∀ p ∈ pas, x.line ≠ p / 8) → x ∈ (t.e e).mem.sb) ∧
      (typ ≠ 3 → inCtl a0 = true → bit g.regs.tid 27 = true → typ = 4 ∨ typ = 5 → g.mem.defer.length < 32 →
        Does i s fun t => plain t ∧ (t.e e).mem.sb = g.mem.sb ∧
          (t.e e).mem.defer = g.mem.defer ++
            [⟨a0 - ctlBase, ws, seg, BitVec.ofInt 36 (offOf g b disp), fld g.regs.st 0 1⟩]) ∧
      (typ ≠ 3 → inCtl a0 = true → bit g.regs.tid 27 = true → typ = 4 ∨ typ = 5 → 32 ≤ g.mem.defer.length →
        Does i s fun t => plain t ∧ (t.e e).mem.sb = g.mem.sb ∧ (t.e e).mem.defer = g.mem.defer ∧
          (t.e e).mem.fails = g.mem.fails ++ [{ cause := 2, seg := seg, off := BitVec.ofInt 36 (offOf g b disp) }]) ∧
      (typ ≠ 3 → inCtl a0 = true → bit g.regs.tid 27 = false → g.mem.sb.length < 8 →
        Does i s fun t => plain t ∧ (t.e e).mem.defer = g.mem.defer ∧
          ∃ x, (t.e e).mem.sb = g.mem.sb ++ [x] ∧ x.kind = .control ∧ x.line = a0 - ctlBase ∧ x.ws = ws ∧ x.phase = 0 ∧
            x.lvl = fld g.regs.st 0 1)

/-- R123, R301, R340: STC and STC.D, near or to a line of data that the engine may store to. With the reservation held they store and
set ST.Z; without it they store nothing and clear ST.Z. The reservation is cleared either way.
The model's own choices and readings in it: log entries 26, 37 and 64. -/
def Obligations.ConditionalStoreResults : Prop :=
  ∀ e a b seg disp s, a < 16 → b < 16 → seg < 9 → disp < 262144 → ready s e 2 = true →
    ∀ n i, (n, i) ∈ [(1, Instr.stc e a b seg disp), (2, .stcD e a b seg disp)] → (n = 2 → a % 2 = 0) →
    ∀ typ pas, checked s e b seg disp n .stc = .ok typ pas →
      (∀ r, (s.e e).mem.resv = some r → r.awaited = []) →
      let g := s.e e
      let ws := (List.range n).map fun k => g.w (a + k)
      let held := resvHeld s e (typ = 3) (pas.headD 0)
      let ends := fun (t : State) => LongRan e s t ∧ (t.e e).mem.resv = none ∧ (∀ r, (final (t.e e)).w r = g.w r) ∧
        ∀ k, k < 36 → bit (final (t.e e)).regs.st k = if k = 6 then held else bit g.regs.st k
      (typ = 3 → Does i s fun t => ends t ∧
        if held then NearWritten g (t.e e) (pas.headD 0) ws else (t.e e).mem.near = g.mem.near) ∧
      (typ = 1 → g.mem.sb.length + g.sbNeed .data pas ≤ 8 → (∀ x ∈ g.mem.sb, ∀ p ∈ pas, x.line ≠ p / 8) →
        (bit g.regs.tid 27 = true ∨ ∃ x, g.l1Find (pas.headD 0 / 8) = some x ∧ (x.st = .e ∨ x.st = .m)) →
        Does i s fun t => ends t ∧ (t.e e).mem.near = g.mem.near ∧
          (if held then ∀ k, k < n → (t.e e).sbWord (pas.getD k 0) = some (ws.getD k 0) else (t.e e).mem.sb = g.mem.sb) ∧
          (held = true → bit g.regs.tid 27 = true → g.mem.watch = [] →
            ∃ w, (t.e e).mem.watch = [w] ∧ w.idx = 1 ∧ w.gran = granule s (fld g.regs.tid 0 11) false (pas.headD 0)))

/-- R91, R220, R242, R358: an access that a check refuses: a fault is detected with the cause and word of the first check that
fails; a store to words that do not take it is declared failed with cause 02 and goes on, and so does a conditional store, which
stores nothing and clears ST.Z. -/
def Sys2Proof.Claims.RefusedAccesses : Prop :=
  ∀ e a b seg disp s, a < 16 → b < 16 → seg < 9 → disp < 262144 → ready s e 2 = true →
    let g := s.e e
    let raises := fun (vec cause : Nat) (off : Word) (t : State) => OnlyEngine e s t ∧ (t.e e).regs = g.regs ∧
      (t.e e).pipe.exc = some { vec := vec, cause := cause, seg := seg, off := off, ret := g.regs.pc, ds := false }
    let records := fun (off : Word) (t : State) => LongRan e s t ∧ (∀ r, (final (t.e e)).w r = g.w r) ∧
      (t.e e).mem.fails = g.mem.fails ++ [{ cause := 2, seg := seg, off := off }] ∧ (t.e e).mem.sb = g.mem.sb ∧
      (t.e e).mem.near = g.mem.near
    (∀ n acc i, (n, acc, i) ∈ [(1, Acc.load, Instr.ld e a b seg disp), (2, .load, .ldd e a b seg disp), (1, .ldr, .ldr e a b seg disp),
        (2, .ldr, .ldrD e a b seg disp), (1, .store, .st e a b seg disp), (2, .store, .std e a b seg disp),
        (1, .stc, .stc e a b seg disp), (2, .stc, .stcD e a b seg disp)] → (n = 2 → a % 2 = 0) →
      ∀ vec cause off, checked s e b seg disp n acc = .fault vec cause off → Does i s (raises vec cause off)) ∧
    (∀ n i, (n, i) ∈ [(1, Instr.st e a b seg disp), (2, .std e a b seg disp)] → (n = 2 → a % 2 = 0) →
      ∀ off, checked s e b seg disp n .store = .failStore off → Does i s (records off)) ∧
    (∀ n i, (n, i) ∈ [(1, Instr.stc e a b seg disp), (2, .stcD e a b seg disp)] → (n = 2 → a % 2 = 0) →
      ∀ off, checked s e b seg disp n .stc = .failStore off → Does i s fun t => records off t ∧ (t.e e).mem.resv = none ∧
        ∀ k, k < 36 → bit (final (t.e e)).regs.st k = (bit g.regs.st k && decide (k ≠ 6)))

/-- R91: the order of the checks: not loaded, absent or another's, other tenant, level, type, right, alignment, limit. -/
def Sys2Proof.Claims.SegmentCheckOrder : Prop :=
  ∀ s e sel lvl tt acc off n x, lvl ≤ 2 → acc ≠ .fetch → (n = 1 ∨ n = 2) →
    let f := fun c => SegRes.fault 7 c (BitVec.ofInt 36 off)
    (bit sel 20 = false → segCheck s e sel lvl tt acc off n = f 1) ∧
    (bit sel 20 = true → (s.e e).dcFind (fld sel 0 11) (remapIdx s e (fld sel 0 11) (fld sel 12 19)) = some x →
      let typ := fld x.d1 0 2
      let size := (fld x.d1 22 35 + 1) * [1, 8, 512, 32768].getD (fld x.d1 20 21) 0
      let type := if acc = .ldr ∨ acc = .stc then typ = 1 ∨ typ = 3 else typ ≠ 2 ∨ lvl = 2
      let right := bit x.d1 (if acc = .store ∨ acc = .stc then 4 else 3)
      let r := segCheck s e sel lvl tt acc off n
      match (if typ ∈ [0, 6, 7] ∨ fld x.d1 6 17 ≠ fld sel 0 11 then some (f 2)
        else if lvl < 2 ∧ fld sel 0 11 ≠ tt then some (f 3)
        else if lvl < fld x.d1 18 19 then some (f 4)
        else if ¬ type then some (f 5)
        else if right = false then some (f 6)
        else if (acc = .ldr ∨ acc = .stc) ∧ n = 2 ∧ off % 2 ≠ 0 then some (f 8)
        else if off < 0 ∨ (size : Int) ≤ off then some (f 7)
        else if (size : Int) < off + n then some (.fault 7 7 (BitVec.ofInt 36 (off + 1)))
        else none) with
      | some y => r = y
      | none => ∀ v c o, r = .fault v c o → v = 8)

/-- The checks of an access: the statements above together. -/
def Obligations.AccessChecks : Prop := Sys2Proof.Claims.RefusedAccesses ∧ Sys2Proof.Claims.SegmentCheckOrder

/-- R302, R303, R173, R288: COMMIT begins its drain step, STEAL its search, SEGINV and CUST run: what the instruction row leaves.
COMMIT and YIELD outside an activation are illegal instructions with cause 10 (octal). -/
def Sys2Proof.Claims.TaskInstructions : Prop :=
  ∀ e s, ready s e 1 = true →
    let g := s.e e
    (bit g.regs.tid 27 = true → g.pipe.divDue = none → routineOk s e false (.commit e 0) →
      Does (.commit e 0) s fun t => OnlyEngine e s t ∧ (t.e e).regs = g.regs ∧ (t.e e).run.cphase = .draining ∧
        (t.e e).run.stall = some ⟨.commit e 0, .drain, true⟩ ∧ ∀ x ∈ (t.e e).mem.sb, x.openE = false) ∧
    (bit g.regs.tid 27 = false → Does (.commit e 0) s (Raises e 5 8 g.regs.pc s) ∧ Does (.yieldI e 0) s (Raises e 5 8 g.regs.pc s)) ∧
    (fld g.regs.st 0 1 = 2 → g.pipe.divDue = none → g.mem.sb = [] → g.mem.fails = [] →
      routineOk s e false (.steal e 0) → Does (.steal e 0) s fun t => OnlyEngine e s t ∧ (t.e e).regs = g.regs ∧ (t.e e).run.stealing = true ∧
        (t.e e).eff.d = g.regs.d ∧ (t.e e).eff.open_ = bit g.regs.st 3) ∧
    (fld g.regs.st 0 1 = 2 → ∀ a b, a < 16 → b < 16 → g.mem.ctlAns = none → routineOk s e false (.seginv e a b) →
      Does (.seginv e a b) s fun t => OnlyEngine e s t ∧ (t.e e).regs = g.regs ∧
        (t.e e).run.stall = some ⟨.seginv e a b, .seginv (fld (g.w a) 0 11) (fld (g.w b) 0 7), true⟩) ∧
    (fld g.regs.st 0 1 = 2 → ∀ a b, a < 16 → b < 16 → g.mem.ctlAns ≠ none → routineOk s e false (.seginv e a b) →
      Does (.seginv e a b) s fun t => RanQuietly e 1 s t)

/-- Word k of the mantle's frame of engine e, as the return to it reads it (log entry 61). -/
def Sys2Proof.Claims.mantleWord (s : State) (e k : Nat) : Word :=
  let o := 0o76000 + 16 * (fld (s.e e).regs.sad 0 4 - 1) + k
  if o ∈ (s.e e).mem.nbad then Config.freeNear s.freeCtr k else tget 0 (s.e e).mem.near o

/-- R307, R302: YIELD writes the yield frame and state 5 to the context record, hands the activation on as a resumed entry, and
returns to the mantle through the frame of the context switch. -/
def Sys2Proof.Claims.YieldHandsTheActivationOn : Prop :=
  ∀ e s x, ready s e 1 = true → bit (s.e e).regs.tid 27 = true → (s.e e).pipe.divDue = none → (s.e e).run.entry = some x →
    x.ctx < 16384 → (s.e e).mem.watch = [] → (s.e e).mem.defer = [] → routineOk s e false (.yieldI e 0) →
    let g := s.e e
    let fr := mantleWord s e
    Does (.yieldI e 0) s fun t =>
      let h := t.e e
      ctxState t x.ctx = 5 ∧ (∀ k, k < 8 → t.cg (rCtx x.ctx (15 + k)) = g.w k) ∧ t.cg (rCtx x.ctx 23) = g.regs.st ∧
        fld (t.cg (rCtx x.ctx 24)) 8 35 = (g.regs.pc + 1) % 2 ^ 28 ∧
        (∃ y, t.rel.yielded = s.rel.yielded ++ [(e, y)] ∧ y.ctx = x.ctx ∧ y.kind = .resumed ∧ y.n = x.n ∧
          y.deadline = x.deadline ∧ y.carry.fails = g.mem.fails) ∧
        h.run.entry = none ∧ (∀ k, k < 8 → h.w k = fr k) ∧
        (∀ b, b < 36 → bit h.regs.st b = (bit (fr 8) b && !decide (18 ≤ b ∧ b ≤ 23))) ∧ h.regs.pc = fld (fr 9) 8 35 ∧ h.regs.ph = fr 10 ∧
        h.regs.pl = fr 11 ∧ (∀ b, b < 36 → bit h.regs.tid b = (bit (fr 12) b && decide (b ≤ 27))) ∧ h.regs.spc = fr 13 ∧ fld h.regs.cs 12 19 = fld (fr 9) 0 7 ∧
        h.mem.resv = none ∧ (∀ c ∈ h.mem.l1d, c.st ≠ .t) ∧ ∀ m, m ≠ e → t.e m = s.e m

/-- R286, R288 to R291: the search of STEAL claims the first eligible entry of its order and switches to the activation, or, where
there is none, clears ST.Z and lets the idle loop wait. -/
def Sys2Proof.Claims.StealSearchClaimsOrWaits : Prop :=
  ∀ e s stall, e < 144 → (s.e e).run.stealing = true → (s.e e).run.stall = none → (s.e e).pipe.exc = none →
    (s.e e).run.halted = false → (s.e e).run.inService = true → (s.e e).run.inReset = false → bit (s.e e).regs.tid 27 = false →
    let g := s.e e
    (searchFirst s e (stealOrder s e) = none →
      Does (.stealSearch e stall) s fun t => OnlyEngine e s t ∧ (t.e e).run.stealing = false ∧
        (t.e e).regs.pc = (g.regs.pc + 1) % 2 ^ 37 ∧ (t.e e).regs.w = g.regs.w ∧
        (∀ b, b < 36 → bit (t.e e).regs.st b = (bit g.regs.st b && decide (b ≠ 6))) ∧
        (bit (s.cg (rIPEND e)) 2 = false → (t.e e).run.idleWait = true)) ∧
    (∀ q x, searchFirst s e (stealOrder s e) = some (q, x) → x.ctx < 16384 →
      Does (.stealSearch e stall) s fun t =>
        let h := t.e e
        h.run.stealing = false ∧ h.run.entry = some x ∧ t.deque q = (s.deque q).filter (fun y => y.ctx ≠ x.ctx) ∧
          ctxState t x.ctx = 4 ∧
          (x.kind ≠ .resumed → h.w 0 = BitVec.ofNat 36 x.ctx ∧ h.w 3 = BitVec.ofNat 36 ((x.n + 2) % 3) ∧
            h.regs.pc = fld (x.recw.getD 7 0) 8 35 ∧ fld h.regs.st 0 1 = fld (x.recw.getD 0 0) 17 18) ∧
          (x.kind = .resumed → ∀ k, k < 8 → h.w k = s.cg (rCtx x.ctx (15 + k))) ∧
          fld h.regs.tid 0 11 = x.tenant % 4096 ∧ fld h.regs.tid 12 25 = x.ctx % 16384 ∧ bit h.regs.tid 26 = x.sealed ∧
          bit h.regs.tid 27 = true ∧ fld h.regs.sad 5 9 = 0 ∧ fld h.regs.sad 10 14 = 0 ∧
          fld h.regs.sad 0 4 = (fld g.regs.sad 0 4 + 1) % 32 ∧
          (∀ k, k < 8 → tget 0 h.mem.near (0o76000 + 16 * fld g.regs.sad 0 4 + k) = g.w k) ∧
          ∀ m, m ≠ e → t.e m = s.e m)

/-- YIELD and the search of STEAL: the statements above together.
The model's own choices and readings in it: log entries 9, 44 and 61. -/
def Obligations.HandingActivationsOn : Prop := Sys2Proof.Claims.YieldHandsTheActivationOn ∧ Sys2Proof.Claims.StealSearchClaimsOrWaits

/-- R302, R303, R334, R22: the drain step over, COMMIT asks the homes of the activation's tentative lines for their locks; with the locks
granted and no notice of the context outstanding, the activation is committed: NCOMMIT grows, PUBLISH goes to each home, and the
engine returns to the mantle. A deadline that has come before COMMIT begins ends it with the drop counted and nothing committed. -/
def Sys2Proof.Claims.CommitSteps : Prop :=
  ∀ e s stall, e < 144 →
    let g := s.e e
    let inTime := engineDown s e = false ∧ g.pipe.dlPend = false ∧ deadlineGone s g = false
    (g.run.cphase = .draining → g.mem.sb = [] → inTime → g.mem.fails = [] →
      Does (.commitBegins e stall) s fun t => OnlyEngine e s t ∧ (t.e e).regs = g.regs ∧
        (t.e e).run.stall.map Stall.why = some (.locks (commitHomes s (fld g.regs.tid 12 25))) ∧
        ∃ n, n ≤ stall ∧ (t.e e).run.cphase = .locking n) ∧
    (∀ x, g.run.cphase = .draining → g.mem.sb = [] → engineDown s e = false → g.pipe.dlPend = true ∨ deadlineGone s g = true →
      g.run.entry = some x → x.ctx < 16384 → bit g.regs.tid 27 = true → s.rel.waiting = [] →
      Does (.commitBegins e stall) s fun t => (t.e e).run.entry = none ∧ bit (t.e e).regs.tid 27 = false ∧
        (t.e e).run.stall = none ∧ (t.e e).pipe.exc.map Exc.vec = some 3 ∧ (t.e e).mem.watch = [] ∧
        t.cg (rCtx x.ctx 28) = s.cg (rCtx x.ctx 28) + 1 ∧ t.cg (rCtx x.ctx 27) = s.cg (rCtx x.ctx 27)) ∧
    (g.run.cphase = .draining → g.mem.sb = [] → inTime → g.mem.fails ≠ [] →
      Does (.commitBegins e stall) s fun t => OnlyEngine e s t ∧ (t.e e).regs = g.regs ∧ (t.e e).run.cphase = .idle ∧
        (t.e e).run.stall = none ∧ ((t.e e).pipe.exc.map Exc.vec = some 0o12)) ∧
    (∀ spent w x, g.run.cphase = .locking spent → g.run.stall = some w → w.why = .locks [] → g.run.entry = some x →
      engineDown s e = false → noticeBusy s x.ctx = false → x.ctx < 16384 → g.mem.defer = [] →
      Does (.commitPoint e stall) s fun t =>
        (t.e e).run.entry = none ∧ (t.e e).run.stall = none ∧ (t.e e).run.cphase = .idle ∧
          t.cg (rCtx x.ctx 27) = s.cg (rCtx x.ctx 27) + 1 ∧ (t.e e).mem.resv = none ∧ (t.e e).mem.watch = [] ∧
          (t.e e).regs.pc = fld (mantleWord s e 9) 8 35 ∧
          ∀ h ∈ commitHomes s x.ctx, Msg.publish e x.ctx h ∈ t.home.net)

/-- COMMIT in its three rows, STEAL, YIELD, SEGINV and CUST: the statements above together.
The model's own choices and readings in it: log entries 9, 44 and 61. -/
def Obligations.CommitAndTaskInstructions : Prop := Sys2Proof.Claims.TaskInstructions ∧ Sys2Proof.Claims.CommitSteps

/-- R307, R289, R122, R235, R295, R197: the engine's events: a resumed entry whose stores have settled is placed at its home; the
wait of the idle loop ends with its STEAL; a reservation expires; a machine check is held too long; the budget is exhausted; a long
operation lands.
The model's own choices and readings in it: log entries 2 and 3. -/
def Obligations.EngineEvents : Prop :=
  ∀ e s, e < 144 →
    let g := s.e e
    (∀ k x, k < 16384 → s.rel.yielded.find? (fun p => p.2.ctx = k) = some (e, x) → (∀ b ∈ g.mem.sb, ¬ (b.act = true ∧ b.ctx = k)) →
      (s.deque (fld (x.recw.getD 1 0) 0 7)).length < 64 →
      Does (.resumedEntryClaimable k) s fun t => x ∈ t.deque (fld (x.recw.getD 1 0) 0 7) ∧
        t.rel.yielded = s.rel.yielded.filter (fun p => p.2.ctx ≠ k)) ∧
    (let s1 := (s.setE e ((g.modRun fun r => { r with idleWait := false, pearl := false }).modRegs fun r =>
        { r with pc := r.pc - 1 })).csf (rIPEND e) 2 2 0
     g.run.idleWait = true → e / 12 ∉ s.sys.slate → ready s1 e 1 = true → fld g.regs.st 0 1 = 2 → g.pipe.divDue = none →
      g.mem.sb = [] → g.mem.fails = [] → routineOk s e false (.steal e 0) →
      Does (.workWaitTimeout e) s fun t => (t.e e).run.idleWait = false ∧ (t.e e).run.stealing = true ∧
        (t.e e).regs.pc = g.regs.pc - 1 ∧ bit (t.cg (rIPEND e)) 2 = false ∧ ∀ m, m ≠ e → t.e m = s.e m) ∧
    (∀ r, g.mem.resv = some r → Does (.reservationExpiry e) s fun t => (t.e e).mem.resv = none ∧ (t.e e).regs = g.regs ∧
      (∀ w ∈ t.home.watches, ¬ (w.e = e ∧ w.idx = 0)) ∧ ∀ m, m ≠ e → t.e m = s.e m) ∧
    (bit (s.cg (rIPEND e)) 0 = true → g.run.inService = true → g.run.inReset = false → g.run.pearl = false → e / 12 ∉ s.sys.slate →
      g.run.halted = false →
      Does (.machineCheckHoldTimeout e) s fun t => t.wel.failed = s.wel.failed ++ [{ e := e, cause := 4 }] ∧ t.e e = g ∧
        s.net.devTime + 640000 ≤ t.net.devTime) ∧
    (∀ x, g.run.entry = some x → bit g.regs.tid 27 = true → x.remain ≤ (g.run.use : Int) → g.pipe.budgetRaised = false →
      Does (.budgetExhausted e) s fun t => OnlyEngine e s t ∧ (t.e e).pipe.budgetPend = true ∧ (t.e e).pipe.budgetRaised = true ∧
        (t.e e).regs = g.regs) ∧
    (∀ p ps, g.pipe.pend = p :: ps → p.unit ≠ .none → p.fault = none → (∀ q ∈ ps, p.at_ < q.at_) → g.run.stall = none →
      g.run.halted = false → g.pipe.clk ≤ p.at_ →
      Does (.longOpLanding e) s fun t => OnlyEngine e s t ∧ (t.e e).pipe.pend = ps ∧ (t.e e).pipe.clk = p.at_ ∧
        (t.e e).rd p.dst = (g.rd p.dst &&& ~~~ p.mask) ||| (p.val &&& p.mask) ||| p.orv)

namespace Sys2Proof.Claims

/-- Nothing holds the line at its home, and no request for it waits or is in flight. -/
def quiet (s : State) (l : Nat) : Prop :=
  lineHeld s l = false ∧ (∀ t ∈ s.home.retry, t.line ≠ l) ∧ ∀ m ∈ s.home.net, ∀ ag tn k, m ≠ .req ag l tn k

/-- The home has a committed entry of the line that passes its check and is not poisoned. -/
def sound (s : State) (l : Nat) (x : HLine) : Prop := s.hl l = some x ∧ x.poison = false ∧ x.chk = rsCheck x.ws

/-- A sound entry in a way that a request for tenant tn may use (R377), of a line outside the control window (R61). -/
def found (s : State) (tn l : Nat) (x : HLine) : Prop := sound s l x ∧ wayUsable s tn l x.way = true ∧ inCtl (8 * l) = false

/-- What a request leaves of the entry of its line: its state, its owner or sharers, its words. -/
def Holds (t : State) (l : Nat) (st : DirState) (ws : List Word) (p : HLine → Prop) : Prop :=
  ∃ y, t.hl l = some y ∧ y.st = st ∧ y.ws = ws ∧ y.busy = false ∧ p y

/-- A transaction of the line waits at its home. -/
def Waits (t : State) (l : Nat) (ag : Agent) (p : Txn → Prop) : Prop :=
  (∃ y, t.hl l = some y ∧ y.busy = true) ∧ ∃ x ∈ t.home.txns, x.line = l ∧ x.req = ag ∧ p x

/-- The home keeps no tentative line of the line. -/
def noTents (s : State) (l : Nat) : Prop := ∀ t ∈ s.home.tents, t.line ≠ l

end Sys2Proof.Claims

/-- R328, R332, R563: a load of a line in I outside activations is granted E, but in a locked window S; in I for an activation, or in
S, it is granted S; the owner of a line in E or M is asked to supply it; an activation with a tentative line there is granted T with
its words. RDC is answered without a change of the line (R321). A read of a line of the control window fails (R61). -/
def Sys2Proof.Claims.HomeReads : Prop :=
  ∀ e l s, e < 144 → l < 2 ^ 32 → quiet s l →
    let ag := Agent.engine e
    let act := bit (s.e e).regs.tid 27
    (∀ x, found s (fld (s.e e).regs.tid 0 11) l x →
      (x.st = .i → act = false → lockedWin s (8 * l) = false →
        Does (.rds e l) s fun t => Holds t l .e x.ws (fun y => y.owner = e) ∧ Msg.data ag l .e x.ws 0 0 ∈ t.home.net) ∧
      (x.st = .i → act = true ∨ lockedWin s (8 * l) = true → noTents s l →
        Does (.rds e l) s fun t => Holds t l .s x.ws (fun y => y.sharers = 2 ^ (e / 12)) ∧
          Msg.data ag l .s x.ws 0 0 ∈ t.home.net) ∧
      (x.st = .s → noTents s l →
        Does (.rds e l) s fun t => Holds t l .s x.ws (fun y => enHas y.sharers (e / 12) = true) ∧
          Msg.data ag l .s x.ws 0 0 ∈ t.home.net) ∧
      (∀ tl, x.st = .i ∨ x.st = .s → act = true → s.home.tents = [tl] → tl.line = l → tl.ctx = fld (s.e e).regs.tid 12 25 →
        tl.poison = false → tl.chk = rsCheck tl.ws →
        Does (.rds e l) s fun t => t.home.tents = [{ tl with holder := some e }] ∧
          Msg.data ag l (.t tl.ctx) (mergeWords tl.en x.ws tl.ws) 0 0 ∈ t.home.net) ∧
      (x.st = .e ∨ x.st = .m →
        Does (.rds e l) s fun t => Waits t l ag (fun y => y.owner = some x.owner) ∧ Msg.fwds x.owner l ∈ t.home.net) ∧
      (x.st = .i ∨ x.st = .s →
        Does (.rdc e l) s fun t => Holds t l x.st x.ws (fun y => y.sharers = x.sharers) ∧ Msg.data ag l .rec_ x.ws 0 0 ∈ t.home.net)) ∧
    (inCtl (8 * l) = true →
      Does (.rds e l) s (fun t => t.hl l = s.hl l ∧ Msg.fail ag l 2 ∈ t.home.net) ∧
      (inBootSram (8 * l) = false → Does (.rdc e l) s fun t => t.hl l = s.hl l ∧ Msg.fail ag l 2 ∈ t.home.net))

/-- R328, R333: ownership for a store: RDX of a line in I is granted at once; sharers are invalidated and an owner gives the line up
first; UPG by a sharer; MOD by the owner in E. -/
def Sys2Proof.Claims.HomeOwnership : Prop :=
  ∀ e l s x, e < 144 → l < 2 ^ 32 → quiet s l → found s (fld (s.e e).regs.tid 0 11) l x → noTents s l →
    lockedWin s (8 * l) = false →
    let ag := Agent.engine e
    (x.st = .i →
      Does (.rdx e l) s fun t => Holds t l .m x.ws (fun y => y.owner = e) ∧ Msg.data ag l .m x.ws 0 0 ∈ t.home.net) ∧
    (x.st = .s → sharerEngs s x ≠ [] →
      Does (.rdx e l) s fun t => Waits t l ag (fun y => y.acks = clustersOf (sharerEngs s x)) ∧
        ∀ y ∈ sharerEngs s x, Msg.inv y l false ∈ t.home.net) ∧
    (x.st = .e ∨ x.st = .m →
      Does (.rdx e l) s fun t => Waits t l ag (fun y => y.owner = some x.owner) ∧ Msg.fwdx x.owner l ∈ t.home.net) ∧
    (x.st = .s → enHas x.sharers (e / 12) = true → (sharerEngs s x).filter (· ≠ e) = [] →
      Does (.upg e l) s fun t => Holds t l .m x.ws (fun y => y.owner = e) ∧ Msg.ack ag l false ∈ t.home.net) ∧
    (x.st = .s → enHas x.sharers (e / 12) = true → (sharerEngs s x).filter (· ≠ e) ≠ [] →
      Does (.upg e l) s fun t => Waits t l ag (fun y => y.kind = .upg) ∧
        ∀ y ∈ sharerEngs s x, y ≠ e → Msg.inv y l false ∈ t.home.net) ∧
    (x.st = .e → x.owner = e →
      Does (.modI e l) s fun t => Holds t l .m x.ws (fun y => y.owner = e) ∧ Msg.ack ag l false ∈ t.home.net)

/-- R331, R61, R69, R563: RDO reads without recording the reader; WRL and WRM write the home's copy of a line that no engine holds;
each is refused where the line takes no such access. -/
def Sys2Proof.Claims.HomeAccessesWithoutCache : Prop :=
  ∀ ag l ws en s x, agOk ag = true → l < 2 ^ 32 → ws.length = 8 → en < 2 ^ 32 → quiet s l → found s (agTenant s ag) l x →
    noTents s l → x.st = .i →
    (readRefused s ag l = false →
      Does (.rdo ag l) s (fun t => Holds t l .i x.ws (fun y => y.dirty = x.dirty) ∧ Msg.data ag l .rec_ x.ws 0 0 ∈ t.home.net)) ∧
    (readRefused s ag l = true → Does (.rdo ag l) s fun t => t.hl l = s.hl l ∧ Msg.fail ag l 2 ∈ t.home.net) ∧
    (writeRefused s ag l = false →
      Does (.wrl ag l ws) s (fun t => Holds t l .i ws (fun y => y.dirty = true ∧ y.chk = rsCheck ws) ∧
        Msg.ack ag l false ∈ t.home.net) ∧
      Does (.wrm ag l en ws) s (fun t => Holds t l .i (mergeLanes en x.ws ws) (fun y => y.dirty = true) ∧
        Msg.ack ag l false ∈ t.home.net)) ∧
    (writeRefused s ag l = true →
      Does (.wrl ag l ws) s (fun t => t.hl l = s.hl l ∧ Msg.fail ag l 2 ∈ t.home.net) ∧
      Does (.wrm ag l en ws) s (fun t => t.hl l = s.hl l ∧ Msg.fail ag l 2 ∈ t.home.net))

/-- Reads at a home, and accesses of agents without a cache: the statements above together.
The model's own choices and readings in it: log entries 3, 45 and 68. -/
def Obligations.HomeReadsAndUncached : Prop := Sys2Proof.Claims.HomeReads ∧ Sys2Proof.Claims.HomeAccessesWithoutCache

/-- R332, R339, R334: a tentative write of an activation's line joins its words; a watch is recorded; a write-back comes home; the
locks of a home are granted once every tentative line of the context there is locked; DISCARD takes the tentative lines away. -/
def Sys2Proof.Claims.HomeTentative : Prop :=
  ∀ e l s, e < 144 → l < 2 ^ 32 → quiet s l →
    let ag := Agent.engine e
    (∀ k tn en ws tl, s.home.net = [.wrt e l k tn en ws] → s.home.tents = [tl] → tl.line = l → tl.ctx = k → tl.lock = false →
      tl.poison = false → tl.chk = rsCheck tl.ws → lockedWin s (8 * l) = false → (en = 255 ∨ ∃ x, sound s l x) →
      Does (.wrt e l) s fun t =>
        t.home.tents = [{ tl with
          ws := mergeWords en tl.ws ws, chk := rsCheck (mergeWords en tl.ws ws), en := Nat.lor tl.en en, holder := some e }] ∧
          Msg.ack ag l false ∈ t.home.net) ∧
    (∀ r, (s.e e).mem.resv = some r → l ∈ r.gran.lines →
      Does (.watch e l 0) s fun t => { e := e, idx := 0, line := l } ∈ t.home.watches ∧
        ((t.e e).mem.resv = some { r with awaited := r.awaited.filter (· ≠ l) })) ∧
    (∀ x ws, sound s l x → x.st = .m → x.owner = e → s.home.net = [.wbk e l ws 0] → noTents s l →
      Does (.wbk e l) s fun t => Holds t l .i ws (fun y => y.dirty = true ∧ y.poison = false) ∧
        Msg.ack ag l false ∈ t.home.net ∧ Msg.wbk e l ws 0 ∉ t.home.net) ∧
    (∀ h hs w tl, h < 12 → (s.e e).run.stall = some w → w.why = .locks hs → h ∈ hs → s.home.tents = [tl] →
      tl.ctx = fld (s.e e).regs.tid 12 25 → homeOf tl.line = h → tl.line = l → tl.lock = false → s.hl l = none →
      Does (.lock e h) s fun t => t.home.tents = [{ tl with lock := true }] ∧
        (t.e e).run.stall = some { w with why := .locks (hs.filter (· ≠ h)) }) ∧
    (∀ k h, k < 16384 → h < 12 → (∀ a, Msg.publish a k h ∉ s.home.net) →
      Does (.discard k h) s fun t => t.home.tents = s.home.tents.filter (fun x => !(x.ctx = k && homeOf x.line = h)) ∧
        ∀ x ∈ s.home.tents, x.ctx = k → homeOf x.line = h → ∀ y, x.holder = some y → Msg.inv y x.line true ∈ t.home.net)

/-- R334, R335: PUBLISH makes a tentative line the committed one, recorded in S for the publishing engine's cluster, its lock off. -/
def Sys2Proof.Claims.PublishCommitsTheLine : Prop :=
  ∀ e h s k tl x, e < 144 → h < 12 → s.home.net = [.publish e k h] → s.home.tents = [tl] → tl.ctx = k → homeOf tl.line = h →
    tl.lock = true → tl.poison = false → tl.chk = rsCheck tl.ws → sound s tl.line x → x.st = .i → lockedWin s (8 * tl.line) = false →
    Does (.publish e h) s fun t => t.home.tents = [] ∧
      (∃ y, t.hl tl.line = some y ∧ y.ws = mergeWords tl.en x.ws tl.ws ∧ y.st = .s ∧ y.sharers = 2 ^ (e / 12) ∧ y.lock = false ∧
        y.dirty = true) ∧ Msg.publish e k h ∉ t.home.net

/-- Tentative lines at a home: the statements above together.
The model's own choices and readings in it: log entries 3, 45 and 69. -/
def Obligations.HomeTentativeLines : Prop := Sys2Proof.Claims.HomeTentative ∧ Sys2Proof.Claims.PublishCommitsTheLine

/-- R327, R329, R330, R563: the replies that a home waits for: the last IACK of an RDX or UPG grants the line, or fails where the line has
come into a locked window; FDATA of an owner supplies the
reader with its words, which the home takes; FNONE lets the home supply its own. -/
def Sys2Proof.Claims.HomeReplies : Prop :=
  ∀ e c o l s x tx, e < 144 → c < 12 → o < 144 → l < 2 ^ 32 → sound s l x → noTents s l → s.home.txns = [tx] → tx.line = l →
    tx.req = .engine e → tx.unc = false → tx.place = 0 →
    (tx.kind = .rdx → tx.acks = [c] → tx.owner = none → x.st = .s → s.home.net = [.iack c l] →
      Does (.iack c l) s fun t => t.home.txns = [] ∧
        if lockedWin s (8 * l) then Holds t l .i x.ws (fun y => y.sharers = 0) ∧ t.home.net = [.fail (.engine e) l 2]
        else Holds t l .m x.ws (fun y => y.owner = e) ∧ t.home.net = [.data (.engine e) l .m x.ws 0 0]) ∧
    (∀ w, tx.kind = .rds none w → tx.acks = [] → tx.owner = some o → x.st = .m → x.owner = o →
      (∀ ws, s.home.net = [.fdata o l ws 0 true] →
        Does (.fdata o l) s fun t => Holds t l .s ws (fun y => y.dirty = true ∧ enHas y.sharers (o / 12) = true ∧
          enHas y.sharers (e / 12) = true) ∧ t.home.txns = [] ∧ t.home.net = [.data (.engine e) l .s ws 0 1]) ∧
      (s.home.net = [.fnone o l] →
        Does (.fnone o l) s fun t => Holds t l .s x.ws (fun _ => True) ∧ t.home.txns = [] ∧
          t.home.net = [.data (.engine e) l .s x.ws 0 0]))

/-- Ownership at a home, and the replies it waits for: the statements above together.
The model's own choices and readings in it: log entries 3 and 45. -/
def Obligations.HomeOwnershipAndReplies : Prop := Sys2Proof.Claims.HomeOwnership ∧ Sys2Proof.Claims.HomeReplies

/-- R329, R330, R347, R339: what an engine answers to the messages of a home about a line in its L1 data cache: FWDS leaves it in S,
FWDX and RCL take it, INV enters the queue and is acknowledged, its application drops the copy and, with a copy, the reservation on it, and RSVL
takes the reservation and turns a watched granule into a failure record.
The model's own choices and readings in it: log entries 3, 45, 63 and 74. -/
def Obligations.EngineAnswersTheHome : Prop :=
  ∀ e l s, e < 144 → l < 2 ^ 32 →
    let g := s.e e
    (∀ x, g.l1Any l = some x → heldBack g l = false →
      (s.home.net = [.fwds e l] → x.st = .m →
        Does (.fwds e l) s fun t => (t.e e).l1Any l = some { x with st := .s } ∧ t.home.net = [.fdata e l x.ws x.pois true]) ∧
      (s.home.net = [.fwdx e l] → x.st = .m →
        Does (.fwdx e l) s fun t => (t.e e).l1Any l = none ∧ t.home.net = [.fdata e l x.ws x.pois true]) ∧
      (s.home.net = [.rcl e l] → x.st = .m →
        Does (.rcl e l) s fun t => (t.e e).l1Any l = none ∧ t.home.net = [.wbk e l x.ws x.pois]) ∧
      (s.home.net = [.rcl e l] → x.st = .s →
        Does (.rcl e l) s fun t => (t.e e).l1Any l = none ∧ t.home.net = [.iack (e / 12) l])) ∧
    (g.l1Any l = none →
      (s.home.net = [.fwds e l] → Does (.fwds e l) s fun t => t.home.net = [.fnone e l]) ∧
      (s.home.net = [.fwdx e l] → Does (.fwdx e l) s fun t => t.home.net = [.fnone e l]) ∧
      (s.home.net = [.rcl e l] → Does (.rcl e l) s fun t => t.home.net = [.fnone e l])) ∧
    (s.home.net = [.inv e l false] → heldBack g l = false → g.mem.invq.length < 16 →
      Does (.inv e l) s fun t => (t.e e).mem.invq = g.mem.invq ++ [l] ∧ t.home.net = [.iack (e / 12) l]) ∧
    (∀ q, g.mem.invq = l :: q → g.run.stall = none →
      Does (.invApply e) s fun t => (t.e e).mem.invq = q ∧ (t.e e).l1Any l = none ∧
        (∀ m, m ≠ l → (t.e e).l1Any m = g.l1Any m) ∧ (g.l1Any l = none → (t.e e).mem.resv = g.mem.resv) ∧
        (∀ r, g.l1Any l ≠ none → g.mem.resv = some r → r.gran.near = false → l ∈ r.gran.lines → (t.e e).mem.resv = none)) ∧
    (∀ r w, s.home.net = [.rsvl e l] → g.mem.resv = some r → r.gran.near = false → l ∈ r.gran.lines → g.mem.watch = [w] →
      granHas w l = true →
      Does (.rsvl e l) s fun t => (t.e e).mem.resv = none ∧ (t.e e).mem.watch = [] ∧
        (t.e e).mem.fails = g.mem.fails ++ [{ cause := 2, seg := w.seg, off := w.off }] ∧ t.home.net = [])

/-- R311, R327, R338, R345, R354: replies at a requester: DATA installs the line in the granted state, T only for the activation that the
engine runs, DATA M with the words of the store
that waits for it, ACK frees the entry whose words the line
has taken, FAIL makes a failure record; NAK starts the back-off of 16, 32 or 64 cycles of 750 MHz, at whose end the request is
resent.
The model's own choices and readings in it: log entries 2 and 3. -/
def Obligations.RequesterReplies : Prop :=
  ∀ e l s, e < 144 → l < 2 ^ 32 →
    let g := s.e e
    let ag := Agent.engine e
    (∀ gr st ws stall, (gr, st) ∈ [(Grant.s, L1State.s), (.e, .e)] ∨
        (gr = .t (fld g.regs.tid 12 25) ∧ st = .t ∧ bit g.regs.tid 27 = true) → s.home.net = [.data ag l gr ws 0 0] → l ∉ g.mem.invq →
      g.run.stall = none → g.mem.sb = [] →
      Does (.dataM ag l stall) s fun t => ((t.e e).l1Any l).map (fun x => (x.st, x.ws, x.tenant)) =
        some (st, ws, fld g.regs.tid 0 11) ∧ Msg.data ag l gr ws 0 0 ∉ t.home.net) ∧
    (∀ k ws stall, s.home.net = [.data ag l (.t k) ws 0 0] → ¬ (bit g.regs.tid 27 = true ∧ fld g.regs.tid 12 25 = k) →
      l ∉ g.mem.invq → g.run.stall = none → g.mem.sb = [] →
      Does (.dataM ag l stall) s fun t => (t.e e).l1Any l = g.l1Any l ∧ t.home.net = []) ∧
    (∀ x ws stall, g.mem.sb = [x] → x.line = l → x.kind = .data → x.act = false → x.phase = 1 → g.run.stall = none →
      s.home.net = [.data ag l .m ws 0 0] → l ∉ g.mem.invq →
      Does (.dataM ag l stall) s fun t => ((t.e e).l1Any l).map (fun c => (c.st, c.ws, c.tenant)) =
        some (.m, mergeWords x.en ws x.ws, x.tenant) ∧ (t.e e).mem.sb.map SbEntry.phase = [3]) ∧
    (∀ ws stall, s.home.net = [.data .mgmt l .rec_ ws 0 0] →
      Does (.dataM .mgmt l stall) s fun t => t.answer = .read ws ∧ t.home.net = []) ∧
    (∀ x stall, g.mem.sb = [x] → x.line = l → x.kind = .data → x.act = false → x.unc = false → x.phase = 2 → g.run.stall = none →
      s.home.net = [.ack ag l false] → Does (.ack ag l stall) s fun t => (t.e e).mem.sb = [] ∧ t.home.net = []) ∧
    (∀ x stall cause, g.mem.sb = [x] → x.line = l → x.kind = .data → x.act = false → x.phase = 1 → g.run.stall = none →
      s.home.net = [.fail ag l cause] →
      Does (.fail ag l stall) s fun t => (t.e e).mem.sb = [] ∧ t.home.net = [] ∧
        (t.e e).mem.fails = g.mem.fails ++ [{ cause := cause, seg := x.seg, off := x.soff }]) ∧
    (∀ tk, s.home.retry = [tk] → tk.line = l → tk.req = ag →
      (Msg.nak ag l ∈ s.home.net → Does (.nak ag l) s fun t => t.home.retry = [{ tk with due := s.net.devTime +
        ((if tk.naks ≤ 1 then 16 else if tk.naks = 2 then 32 else 64) * 256 + 2) / 3 }]) ∧
      (tk.msg ∉ s.home.net → Msg.nak ag l ∉ s.home.net →
        Does (.nakRetry ag l) s fun t => t.home.net = s.home.net ++ [tk.msg] ∧ t.net.devTime = max s.net.devTime tk.due))

/-- R200, R208, R320, R345, R346, R355: the store buffer: an entry whose instructions have retired drains into a line that the engine owns, or asks for it; an
acknowledged entry is freed; one without an answer for 64 µs is declared failed with cause 01.
The model's own choices and readings in it: log entries 2, 3, 62, 72 and 73. -/
def Obligations.StoreBufferDrains : Prop :=
  ∀ e s x, e < 144 → (s.e e).mem.sb = [x] → (s.e e).run.stall = none →
    let g := s.e e
    (x.kind = .data → x.act = false → x.unc = false → x.phase = 0 → x.en ≠ 0 → g.run.inReset = false → g.retired x = true → reqOut s (.engine e) x.line = false →
      (∀ c, g.l1Any x.line = some c → c.tenant = x.tenant → c.st = .m →
        Does (.storeDrain e 0) s fun t => (t.e e).mem.sb.map SbEntry.phase = [3] ∧
          ((t.e e).l1Any x.line).map L1Line.ws = some (mergeWords x.en c.ws x.ws)) ∧
      (g.l1Any x.line = none →
        Does (.storeDrain e 0) s fun t => (t.e e).mem.sb.map SbEntry.phase = [1] ∧
          t.home.net = s.home.net ++ [.req (.engine e) x.line x.tenant .rdx])) ∧
    (x.kind = .data → x.phase = 3 → Does (.storeAcknowledged e 0) s fun t => (t.e e).mem.sb = [] ∧ t.ctl = s.ctl) ∧
    (x.act = false → x.phase = 1 ∨ x.phase = 2 →
      Does (.storeNoAnswer e 0) s fun t => (t.e e).mem.sb = [] ∧ t.net.devTime = max s.net.devTime x.due ∧
        (t.e e).mem.fails = g.mem.fails ++ [{ cause := 1, seg := x.seg, off := x.soff }])

namespace Sys2Proof.Claims

/-- The state in which the instruction that stall `w` of engine e held is carried out: n cycles of the stall are counted, and it has
ended. -/
def wakes (e ctr n : Nat) (w : Stall) (s : State) : State :=
  (measured e ctr n s).modE e fun g => g.modRun fun r => { r with stall := none, resuming := some w }

/-- The stalled instruction i has been carried out in state s1, and stalls no more. -/
def CarriedOut (e : Nat) (i : Instr) (s1 t : State) : Prop :=
  ∀ u, exec i s1 = .next u → (u.e e).run.stall = none →
    (t.e e).regs = (u.e e).regs ∧ (t.e e).pipe = (u.e e).pipe ∧ (t.e e).run.stall = none ∧ (t.e e).run.resuming = none ∧
      (∀ m, m ≠ e → t.e m = u.e m) ∧ t.mem = u.mem ∧ t.rel = u.rel

end Sys2Proof.Claims

/-- R180, R210, R97, R263, R384, R654: what ends a measured stall carries the instruction out: the answer of a control-window block,
the completion of SEGINV on the whole device, the rewrite of a failing microword, the end of the padding of a sealed tenant, and the
line of an STC held in E or M. The cycles counted are the measured ones, at most the bound of R210. An STC whose line has been taken
from it is carried out anew.
The model's own choices and readings in it: log entries 9, 59 and 71. -/
def Sys2Proof.Claims.StallsEnd : Prop :=
  ∀ e s w stall, e < 144 → (s.e e).run.stall = some w → (bit (s.e e).regs.tid 26 && bit (s.e e).regs.tid 27) = false →
    let g := s.e e
    (∀ i ∈ [Instr.ld, .ldd, .ldr, .ldrD], ∀ a b seg disp off dbl ws u, w.instr = i e a b seg disp → w.why = .ctl off dbl →
      cwRead (readClears s (.engine e)) off dbl s = (some ws, u) → (u.e e).mem.ctlAns = none →
      Does (.controlWindowLoadAnswer e stall) s fun t => ∃ n, n ≤ stall ∧ CarriedOut e w.instr
        (wakes e 0o22 n w (u.modE e fun g => g.modMem fun m => { m with ctlAns := some ws })) t) ∧
    (∀ a b tn ix, w.instr = .seginv e a b → w.why = .seginv tn ix →
      Does (.seginvComplete e stall) s fun t =>
        (∃ n, n ≤ stall ∧ CarriedOut e w.instr (wakes e 0o30 n w ((seginvDev tn ix s).modE e fun g => g.modMem fun m =>
          { m with ctlAns := some [] })) t) ∧
        ∀ m, m < 144 → (t.e m).dcFind tn ix = none) ∧
    (∀ n a b addr, w.instr = .cust e n a b → w.why = .micro addr → (∀ f ∈ s.wel.failed, f.e ≠ e) →
      Does (.microwordRewrite e stall) s (CarriedOut e w.instr (wakes e 0o30 stall w (microWrite e addr s)))) ∧
    (∀ i ∈ [Instr.ld, .ldd, .ldr, .ldrD], ∀ a b seg disp n ctr was, w.instr = i e a b seg disp → w.why = .padded n ctr was →
      Does (.paddedStallEnd e) s (CarriedOut e w.instr (wakes e ctr n { w with why := was } s))) ∧
    (∀ i ∈ [Instr.stc, .stcD], ∀ a b seg disp l, w.instr = i e a b seg disp → w.why = .stcLine l →
      (∀ c, g.l1Find l = some c → c.st = .e ∨ c.st = .m →
        Does (.stcDecision e stall) s fun t => ∃ n, n ≤ stall ∧ CarriedOut e w.instr (wakes e 0o22 n w s) t) ∧
      (g.l1Find l = none → g.mem.ctlAns = none → reqOut s (.engine e) l = false →
        Does (.stcDecision e stall) s (CarriedOut e w.instr (s.modE e fun g => g.modRun fun r =>
          { r with stall := none, resuming := some w }))))

namespace Sys2Proof.Claims

/-- Engine e holds instruction i in EX, in a stall for y; else it runs, with nothing outstanding, and no activation of a sealed tenant on
it (R180, R384). -/
def HoldsInEx (e : Nat) (i : Instr) (y : Wait) (s : State) : Prop :=
  let g := s.e e
  g.run.stall = some ⟨i, y, true⟩ ∧ g.run.inService = true ∧ g.run.inReset = false ∧ g.run.halted = false ∧ g.run.pearl = false ∧
    g.run.cphase = .idle ∧ g.run.stealing = false ∧ g.run.idleWait = false ∧ g.run.stepMode = .run ∧ g.pipe.exc = none ∧
    g.pipe.slot = none ∧ g.pipe.skip = false ∧ g.pipe.pend = [] ∧ fld g.regs.st 24 35 = 0 ∧ g.mem.ctlAns = none ∧ g.mem.unc = []

/-- Engine e runs on behind the instruction of n parcels that it held: no stall, no exception, nothing delivered left over, and the
registers but W0 to W15, ST, the selectors and the program counter as before. -/
def WentOn (e n : Nat) (s t : State) : Prop :=
  let g := s.e e
  let h := t.e e
  h.run.stall = none ∧ h.run.resuming = none ∧ h.pipe.exc = none ∧ h.mem.ctlAns = none ∧ h.regs.pc = (g.regs.pc + n) % 2 ^ 37 ∧
    h.regs.ph = g.regs.ph ∧ h.regs.pl = g.regs.pl ∧ h.regs.spc = g.regs.spc ∧ h.regs.tid = g.regs.tid ∧ h.regs.sad = g.regs.sad

end Sys2Proof.Claims

/-- R97, R123, R180, R210, R263, R384: what the rows that end a measured stall leave of the instruction that waited: a load of the control
window has the words that its block answers; SEGINV has gone on with the descriptor in no cache; the microword that Welana has
rewritten is executed, here of a CUST whose routine adds SRCA and SRCB in one END microword; a load at the end of a sealed tenant's
padding has its words; an STC that holds its line has stored and set ST.Z, or, its reservation lost, cleared ST.Z. -/
def Sys2Proof.Claims.StalledInstructionsComplete : Prop :=
  ∀ e s stall a b seg disp, e < 144 → a < 16 → b < 16 → seg < 9 → disp < 262144 →
    let g := s.e e
    let open_ := (bit g.regs.tid 26 && bit g.regs.tid 27) = false
    let loaded := fun (n : Nat) (ws : List Word) (t : State) => WentOn e 2 s t ∧
      (∀ r, (final (t.e e)).w r = if a ≤ r ∧ r < a + n then ws.getD (r - a) 0 else g.w r) ∧ (final (t.e e)).regs.st = g.regs.st
    (∀ n i, (n, i) ∈ [(1, Instr.ld e a b seg disp), (2, .ldd e a b seg disp)] → (n = 2 → a % 2 = 0) →
      (∀ off dbl ws u typ pas, HoldsInEx e i (.ctl off dbl) s → open_ →
        cwRead (readClears s (.engine e)) off dbl s = (some ws, u) → checked u e b seg disp n .load = .ok typ pas → typ ≠ 3 →
        inCtl (pas.headD 0) = true → ws.length = n →
        Does (.controlWindowLoadAnswer e stall) s (loaded n ws)) ∧
      (∀ k ctr l typ pas ws, HoldsInEx e i (.padded k ctr (.line l)) s → checked s e b seg disp n .load = .ok typ pas → typ ≠ 3 →
        inCtl (pas.headD 0) = false → g.dataWords 0 pas = .ok ws →
        Does (.paddedStallEnd e) s (loaded n ws))) ∧
    (∀ tn ix, HoldsInEx e (.seginv e a b) (.seginv tn ix) s → open_ → routineOk s e false (.seginv e a b) →
      Does (.seginvComplete e stall) s fun t => WentOn e 1 s t ∧ (t.e e).regs.w = g.regs.w ∧ (t.e e).regs.st = g.regs.st ∧
        ∀ m, m < 144 → (t.e m).dcFind tn ix = none) ∧
    (∀ n addr, n < 32 → HoldsInEx e (.cust e n a b) (.micro addr) s → (∀ f ∈ s.wel.failed, f.e ≠ e) →
      let r := microWrite e addr s
      let m := microAt (r.e e) (custBank r e) (1792 + fld (custDir r e n) 1 8)
      microOk false m = true → mfld m 0 3 = 8 → mfld m 19 22 = 1 → mfld m 23 27 = 16 → mfld m 28 32 = 17 → mfld m 33 37 = 16 →
      mfld m 38 41 = 0 → mfld m 68 71 = 0 →
      Does (.microwordRewrite e stall) s fun t => WentOn e 1 s t ∧ (microRead t e addr).1 = (microRead s e addr).2 ∧
        (∀ k, (final (t.e e)).w k = if k = a then g.w a + g.w b else g.w k) ∧ (final (t.e e)).regs.st = g.regs.st) ∧
    (∀ n i, (n, i) ∈ [(1, Instr.stc e a b seg disp), (2, .stcD e a b seg disp)] → (n = 2 → a % 2 = 0) →
      ∀ l c pas, HoldsInEx e i (.stcLine l) s → open_ → bit g.regs.tid 27 = false → checked s e b seg disp n .stc = .ok 1 pas →
        l = pas.headD 0 / 8 → g.l1Find l = some c → c.st = .e ∨ c.st = .m → (∀ r, g.mem.resv = some r → r.awaited = []) →
        g.mem.sb.length + g.sbNeed .data pas ≤ 8 → (∀ x ∈ g.mem.sb, ∀ p ∈ pas, x.line ≠ p / 8) →
        Does (.stcDecision e stall) s fun t => ∃ k, k ≤ stall ∧
          let held := resvHeld (measured e 0o22 k s) e false (pas.headD 0)
          WentOn e 2 s t ∧ (t.e e).mem.resv = none ∧ (∀ r, (final (t.e e)).w r = g.w r) ∧
            (∀ j, j < 36 → bit (final (t.e e)).regs.st j = if j = 6 then held else bit g.regs.st j) ∧
            if held then ∀ j, j < n → (t.e e).sbWord (pas.getD j 0) = some (g.w (a + j)) else (t.e e).mem.sb = g.mem.sb)

/-- The rows that end a measured stall: the statements above together.
The model's own choices and readings in it: log entries 9, 59 and 71. -/
def Obligations.StallsEndByCarryingOut : Prop := Sys2Proof.Claims.StallsEnd ∧ Sys2Proof.Claims.StalledInstructionsComplete

/-- R175, R249 to R255, R258, R261, R263, R264: a CUST whose routine is one END microword that adds SRCA and SRCB; a microcoded instruction
one of whose microwords fails its check waits for the rewrite, with MCAUSE.CSTORE set; a scrub that finds a failing
word rewrites it and sets MCAUSE.CSTORE; a near-store scrub that finds an uncorrectable word marks it and sets MCAUSE.
The model's own choices and readings in it: log entries 12, 44 and 70. -/
def Obligations.ControlStore : Prop :=
  ∀ e s, e < 144 →
    let g := s.e e
    (∀ n a b, n < 32 → a < 16 → b < 16 → ready s e 1 = true → bit (custDir s e n) 0 = true →
      let m := microAt g (custBank s e) (1792 + fld (custDir s e n) 1 8)
      microOk false m = true → mfld m 0 3 = 8 → mfld m 19 22 = 1 → mfld m 23 27 = 16 → mfld m 28 32 = 17 → mfld m 33 37 = 16 →
      mfld m 38 41 = 0 → mfld m 68 71 = 0 →
      Does (.cust e n a b) s fun t => (t.e e).regs.pc = (g.regs.pc + 1) % 2 ^ 37 ∧ (t.e e).pipe.exc = none ∧
        (∀ r, (final (t.e e)).w r = if r = a then g.w a + g.w b else g.w r) ∧ (final (t.e e)).regs.st = g.regs.st ∧
        (∀ k, k ≠ e → t.e k = s.e k) ∧ t.mem = s.mem ∧ t.home = s.home) ∧
    (∀ a b addr, a < 16 → b < 16 → ready s e 1 = true →
      let lvl := fld g.regs.st 0 1
      let tn := if lvl = 2 then fld (g.w b) 0 11 else fld g.regs.tid 0 11
      let hit := (g.dcFind tn (remapIdx s e tn (fld (g.w b) 12 19))).isSome
      ∀ i h, (i, h) ∈ [(Instr.fjmp e a b, hit), (.fcall e a b, hit)] ∨ (a < 8 ∧ (i, h) = (.segld e a b, hit)) ∨
          (lvl = 2 ∧ (i, h) = (.seginv e a b, false)) ∨
          (bit g.regs.tid 27 = true ∧ (i, h) ∈ [(.yieldI e 0, false), (.commit e 0, false)]) ∨
          (lvl = 2 ∧ (i, h) = (.steal e 0, false)) →
        vendorBad s e (vendorRoutine h i) = some addr →
        Does i s fun t => (t.e e).regs = g.regs ∧ (t.e e).run.stall = some ⟨i, .micro addr, true⟩ ∧ bit (t.cg (rMCAUSE e)) 0 = true ∧
          bit (t.cg (rIPEND e)) 0 = true ∧ fld (t.cg (rCSERR e)) 0 11 = addr) ∧
    (∀ addr, addr < 2304 → microOk (decide (addr < 1792)) (microRead s e addr).1 = false →
      Does (.cstoreScrub e addr) s fun t => (microRead t e addr).1 = (microRead s e addr).2 ∧
        bit (t.cg (rMCAUSE e)) 0 = true ∧ bit (t.cg (rIPEND e)) 0 = true ∧ fld (t.cg (rCSERR e)) 0 11 = addr) ∧
    (∀ addr, addr < 32768 → g.run.inService = true →
      Does (.nearStoreScrub e addr) s fun t => addr ∈ (t.e e).mem.nbad ∧ bit (t.cg (rMCAUSE e)) 1 = true ∧
        bit (t.cg (rIPEND e)) 0 = true) ∧
    (∀ ag w, agOk ag = true → Does (.ireqWrite ag e w) s fun t => t.cg (rIREQ e) = w ∧ bit (t.cg (rIPEND e)) 1 = true ∧
      t.eng = s.eng ∧ t.answer = .ok)

/-- R208, R229, R513 to R517: a collar mismatch and a silent engine are detected failures with causes 01 and 02; recovery takes the
engine out of service, gives its watches back and asks for an admission run; the loss of a cluster's supply takes its twelve engines
out.
The model's own choices and readings in it: log entries 3 and 51. -/
def Obligations.EngineFailures : Prop :=
  ∀ e s, e < 144 →
    let g := s.e e
    (g.run.inService = true → g.run.inReset = false → (∀ f ∈ s.wel.failed, f.e ≠ e) → g.run.halted = false → g.run.pearl = false →
      e / 12 ∉ s.sys.slate →
      Does (.collarMismatch e) s (fun t => (t.e e).run.inReset = true ∧ t.wel.failed = s.wel.failed ++ [⟨e, 1⟩] ∧
        fld (t.cg rFLTREC) 11 16 = 1) ∧
      Does (.engineSilent e) s (fun t => (t.e e).run.inReset = true ∧ t.wel.failed = s.wel.failed ++ [⟨e, 2⟩] ∧
        fld (t.cg rFLTREC) 11 16 = 2 ∧ s.net.devTime + 6 * 64000 ≤ t.net.devTime)) ∧
    (∀ f ∈ s.wel.failed, f.e = e →
      Does (.engineFailureRecovery e) s fun t => (t.e e).run.inService = false ∧ (t.e e).run.entry = none ∧
        (∀ f ∈ t.wel.failed, f.e ≠ e) ∧ t.wel.rerunDue = true ∧ ∀ w ∈ t.home.watches, w.e ≠ e) ∧
    (∀ c, c < 12 → c ∉ s.wel.clusterDead →
      Does (.clusterDomainLost c) s fun t => c ∈ t.wel.clusterDead ∧ s.net.devTime + 64000 ≤ t.net.devTime ∧
        ∀ i, i < 12 → (t.e (12 * c + i)).run.inService = false)

/-- R45, R49, R52, R359, R513, R518, R520, R649: the memory channels: a scrub repairs a correctable line and counts it; the three
detections of a failed channel; its retirement; and the lines that Welana rewrites.
The model's own choices and readings in it: log entries 3, 28 and 51. -/
def Obligations.MemoryUnits : Prop :=
  ∀ s,
    (∀ l ws c, 9 * (l / 8) + l % 8 < slotsUsed s → dataDead s l = false → checkDead s l = false →
      rsDecode (dramLine s l) (ckRead l s).1 = .fixed ws c →
      Does (.memoryScrub (9 * (l / 8) + l % 8)) s fun t => dramLine t l = ws ∧
        fld (t.cg (rMCSC (dataSub l / 2) (dataSub l % 2))) 0 8 =
          min 511 (fld (s.cg (rMCSC (dataSub l / 2) (dataSub l % 2))) 0 8 + 1)) ∧
    (∀ ch, ch < 4 → ch ∉ s.mem.retired → (∀ f ∈ s.wel.failedU, ¬ (f.1 = 2 ∧ f.2.1 = ch)) →
      Does (.burstUnanswered ch) s (fun t => t.wel.failedU = s.wel.failedU ++ [(2, ch, 7)] ∧
        s.net.devTime + 32000 ≤ t.net.devTime) ∧
      Does (.interfaceLost ch) s (fun t => t.wel.failedU = s.wel.failedU ++ [(2, ch, 8)]) ∧
      (∀ sub, sub / 2 = ch → tget 0 s.mem.uecMark sub + 16 ≤ fld (s.cg (rMCSC (sub / 2) (sub % 2))) 9 17 →
        Does (.channelErrorRate sub) s (fun t => t.wel.failedU = s.wel.failedU ++ [(2, ch, 9)] ∧
          tget 0 t.mem.uecMark sub = fld (s.cg (rMCSC (sub / 2) (sub % 2))) 9 17))) ∧
    (∀ ch f, ch < 4 → f ∈ s.wel.failedU → f.1 = 2 → f.2.1 = ch →
      Does (.memoryChannelRetirement ch) s fun t => ch ∈ t.mem.retired ∧ (∀ f ∈ t.wel.failedU, ¬ (f.1 = 2 ∧ f.2.1 = ch)) ∧
        t.mem.dram = s.mem.dram) ∧
    (∀ l ws x, l < 2 ^ 32 → ws.length = 8 → s.hl l = some x → x.st = .lost → lineHeld s l = false → tenant0Line s l = true →
      lockedWin s (8 * l) = false →
      Does (.lostLineRewrite l ws) s fun t => ∃ y, t.hl l = some y ∧ y.st = .i ∧ y.ws = ws ∧ y.poison = false ∧ y.dirty = true) ∧
    (∀ l x, l < 2 ^ 32 → inDt s l = true → s.hl l = some x → x.poison = true → x.st = .i → lineHeld s l = false →
      lockedWin s (8 * l) = false → ownerCopy s l = none →
      Does (.descriptorLineRewrite l) s fun t => (∃ y, t.hl l = some y ∧ y.poison = false ∧
        ∀ k, k < 4 → let d := cfgDesc s ((4 * (l - dtFirst s) + k) / 256) ((4 * (l - dtFirst s) + k) % 256)
          y.ws.getD (2 * k) 0 = d.1 ∧ y.ws.getD (2 * k + 1) 0 = d.2) ∧
        ∀ m k, m < 144 → k < 4 → (t.e m).dcFind ((4 * (l - dtFirst s) + k) / 256) ((4 * (l - dtFirst s) + k) % 256) = none)

/-- R272 to R277, R284, R310, R311: staging a boundary of an armed context; the release event places what is staged for its tick; a
place in a deque takes the head of its overflow list; a deadline ends an activation that runs below M level, and one that waits for
an earlier COMMIT which has begun.
The model's own choices and readings in it: log entries 2, 3 and 46. -/
def Obligations.ReleaseUnit : Prop :=
  ∀ s,
    (∀ k, k < 16384 → bit (s.cg rRUCTL) 0 = true → s.rel.stopped = false → perOk s k = true →
      let ws := ctxWords s k
      let n := ctxNext s k
      s.net.devTime + 1600000 ≤ boundary ws n → 2 ≤ ctxState s k → ctxDis s k = false → heldOff s k (boundary ws n) = false →
      recOk ws = true → n + 1 < 2 ^ 72 →
      Does (.boundaryStaging k) s fun t => t.rel.staged = s.rel.staged ++ [freshEntry k n ws] ∧ ctxNext t k = n + 1 ∧
        t.net.devTime = max s.net.devTime (boundary ws n - 2 * 1600000)) ∧
    (∀ tick x, s.rel.stopped = false → s.rel.tick ≤ tick → s.rel.staged = [x] → x.rel = tick * 1600000 → s.rel.waiting = [] →
      liveCtxs s = [] → boundaryCtxs s tick = [] → s.net.held = [] → pairRoleOf s ≠ 2 → s.wel.swAt = none → x.ctx < 16384 →
      (s.deque (fld (x.recw.getD 1 0) 0 7)).length < 64 →
      Does (.releaseEvent tick) s fun t => x ∈ t.deque (fld (x.recw.getD 1 0) 0 7) ∧ ctxState t x.ctx = 3 ∧ t.rel.staged = [] ∧
        t.rel.tick = tick + 1 ∧ t.net.devTime = max s.net.devTime (tick * 1600000)) ∧
    (∀ e x q, e < 144 → s.overflow e = x :: q → (s.deque e).length < 64 →
      Does (.overflowMove e) s fun t => t.overflow e = q ∧ x ∈ t.deque e ∧ (t.deque e).length = (s.deque e).length + 1) ∧
    (∀ k e x, k < 16384 → engOf s k = some e → (s.e e).run.entry = some x → x.ctx = k → (s.e e).run.dlHeld = none →
      (s.e e).run.cphase = .idle → fld (s.e e).regs.st 0 1 < 2 → (s.e e).run.halted = false → bit (s.e e).regs.tid 27 = true →
      s.rel.waiting = [] → (∀ y ∈ s.rel.staged, earlyStaged k y = false) → (∀ a h, Msg.publish a k h ∉ s.home.net) →
      Does (.deadlineReached k) s fun t => (t.e e).run.entry = none ∧ ((t.e e).pipe.exc.map Exc.vec = some 3) ∧
        (t.e e).pipe.pend = [] ∧ bit (t.e e).regs.tid 27 = false ∧ t.cg (rCtx k 28) = s.cg (rCtx k 28) + 1 ∧
        (∀ y ∈ t.home.tents, y.ctx ≠ k) ∧ t.net.devTime = max s.net.devTime x.deadline) ∧
    (∀ k e n y, k < 16384 → engOf s k = some e → (s.e e).run.cphase = .locking n → s.rel.waiting = [y] → y.ctx = k →
      (∀ z ∈ s.rel.staged, earlyStaged k z = false) →
      Does (.deadlineReached k) s fun t => t.rel.waiting = [] ∧ t.cg (rCtx k 28) = s.cg (rCtx k 28) + 1 ∧ t.e e = s.e e ∧
        t.net.devTime = max s.net.devTime y.deadline)

/-- R586 to R598, R603, R604: the TAP's instructions and attachment; a halt request, the halt and the release of an engine; stop-all;
reads and writes of the debug bus master of a near store and of a register of a halted engine.
The model's own choices and readings in it: log entries 3, 13 and 48. -/
def Obligations.DebugPort : Prop :=
  ∀ s,
    (tapOn s = true → s.sys.tap ≠ .extest →
      Does .sample s (fun t => t.sys.tap = .sample ∧ t.eng = s.eng) ∧
      Does .preload s (fun t => t.sys.tap = .preload ∧ t.eng = s.eng) ∧
      Does .bypass s (fun t => t.sys.tap = .bypass ∧ t.eng = s.eng) ∧
      Does .extest s (fun t => t.sys.tap = .extest ∧ t.sys.heldInReset = true ∧ t.eng = [] ∧ t.mem.dram = s.mem.dram ∧
        t.boot.otp = s.boot.otp) ∧
      Does .debugAttach s (fun t => t.sys.tap = .dbgacc ∧ t.sys.attached = true ∧ bit (t.cg bootBlk) 24 = true ∧ t.eng = s.eng) ∧
      Does .debugReset s (fun t => t.sys.tap = .bypass ∧ t.sys.attached = false ∧ bit (t.cg bootBlk) 24 = false ∧ t.sys.acc = none ∧
        ∀ e, e < 144 → (t.e e).run.halted = false ∧ (t.e e).regs.dbg = [] ∧ (t.e e).eff.dbg = [])) ∧
    (tapOn s = true → s.sys.tap = .extest →
      Does .leaveExtest s fun t => t.sys.tap = .bypass ∧ t.sys.heldInReset = false ∧ t.eng = [] ∧ t.mem.dram = s.mem.dram) ∧
    (∀ e, e < 144 →
      let g := s.e e
      (haltReach s e = true → g.run.inService = true → g.run.halted = false → g.run.haltReq = none →
        Does (.debugHaltRequest e) s fun t => (t.e e).run.haltReq = some (1, 0) ∧ (t.e e).regs = g.regs ∧ t.answer = .ok) ∧
      (haltReach s e = false → Does (.debugHaltRequest e) s fun t => t.eng = s.eng ∧ t.answer = .failed 2) ∧
      (∀ c u, g.run.haltReq = some (c, u) → c < 16 → u < 4 → g.run.halted = false → g.pipe.pend = [] → g.pipe.slot = none →
        fld g.regs.st 24 35 = 0 → g.run.stall = none → g.pipe.exc = none → g.run.stealing = false → g.run.cphase = .idle →
        g.run.inService = true → g.run.inReset = false → e / 12 ∉ s.sys.slate → g.mem.sb = [] →
        Does (.haltTaken e) s fun t => (t.e e).run.halted = true ∧ (t.e e).run.haltReq = none ∧ (t.e e).mem.resv = none ∧
          bit (t.e e).regs.dstat 0 = true ∧ fld (t.e e).regs.dstat 1 4 = c ∧ fld (t.e e).regs.dstat 5 6 = u ∧
          fld (t.e e).regs.dstat 8 35 = g.regs.pc % 2 ^ 28 ∧ (t.e e).regs.pc = g.regs.pc ∧ ∀ m, m ≠ e → t.e m = s.e m) ∧
      (wholeReach s = true → g.run.halted = true →
        Does (.debugRelease e) s fun t => (t.e e).run.halted = false ∧ (t.e e).regs.pc = fld g.regs.dstat 8 35 ∧
          bit (t.e e).regs.dstat 0 = false ∧ (t.e e).eff.dbg = g.regs.dbg ∧ (t.e e).regs.w = g.regs.w ∧ t.answer = .ok)) ∧
    (lifeState s = 3 → Does .stopAll s fun t => bit (t.cg (dbgBlk + 1)) 0 = true ∧ t.rel.stopped = true ∧ t.answer = .ok ∧
      ∀ e, e < 144 → (s.e e).run.inService = true → (s.e e).run.halted = false → (t.e e).run.haltReq ≠ none) ∧
    (lifeState s ≠ 3 → Does .stopAll s fun t => t.eng = s.eng ∧ t.rel = s.rel ∧ t.answer = .failed 2) ∧
    (bit (s.cg (dbgBlk + 1)) 0 = true → Does .stopAllResume s fun t => bit (t.cg (dbgBlk + 1)) 0 = false ∧ t.rel.stopped = false ∧
      t.answer = .ok ∧ ∀ e, e < 144 → (t.e e).run.halted = false) ∧
    (tapOn s = true → s.sys.tap = .dbgacc → wholeReach s = true → ∀ e, e < 144 → (s.e e).run.halted = true →
      (s.sys.acc = none →
        (∀ a, a < 32768 → Does (.debugReadWord 1 e a) s fun t => t.sys.acc = some ⟨false, 1, e, a, 0⟩ ∧ t.eng = s.eng) ∧
        (∀ n v, n < 16 → Does (.debugWriteWord 2 e n v) s fun t => t.sys.acc = some ⟨true, 2, e, n, v⟩ ∧ t.eng = s.eng)) ∧
      (∀ a, s.sys.acc = some ⟨false, 1, e, a, 0⟩ → a ∉ (s.e e).mem.nbad →
        Does (.debugAccessDone true) s fun t => t.sys.acc = none ∧ t.sys.accResult = 0 ∧ t.sys.accData = tget 0 (s.e e).mem.near a ∧
          t.eng = s.eng) ∧
      (∀ n v, n < 16 → s.sys.acc = some ⟨true, 2, e, n, v⟩ →
        Does (.debugAccessDone true) s fun t => t.sys.acc = none ∧ t.sys.accResult = 0 ∧
          ∀ r, (t.e e).w r = if r = n then v else (s.e e).w r))

/-- R608 to R618, R622, R623, R644: Pearl ends on an IPEND bit; a cluster enters and leaves Slate; Sable is entered when its
conditions hold, and an emulated Sable ends with the device as it was; the junction temperature; the loss and the return of a
reference input.
The model's own choices and readings in it: log entries 2, 3, 41 and 42. -/
def Obligations.PowerAndClocks : Prop :=
  ∀ s,
    (∀ e, e < 144 → (s.e e).run.pearl = true → e / 12 ∉ s.sys.slate → s.cg (rIPEND e) ≠ 0 →
      Does (.pearlExit e) s fun t => (t.e e).run.pearl = false ∧ (t.e e).regs = (s.e e).regs ∧ t.ctl = s.ctl ∧
        (bit (s.cg (rIPEND e)) 2 = true → (t.e e).run.idleWait = false)) ∧
    (∀ c, c < 12 → slateOk s c = true →
      Does (.slateEntry c) s fun t => c ∈ t.sys.slate ∧ bit (t.cg rPWRSTAT) (4 + c) = true ∧
        ∀ i, i < 12 → (s.e (12 * c + i)).run.inService = true →
          (t.e (12 * c + i)).mem.l1d = [] ∧ (t.e (12 * c + i)).mem.dcache = [] ∧ (t.e (12 * c + i)).mem.near = (s.e (12 * c + i)).mem.near) ∧
    (∀ c, c < 12 → c ∈ s.sys.slate → s.sys.sable = false → slateCause s c = true →
      Does (.slateExit c) s fun t => c ∉ t.sys.slate ∧ bit (t.cg rPWRSTAT) (4 + c) = false ∧ t.net.devTime = s.net.devTime + 30 * 64000 ∧
        ∀ i, i < 12 → (s.e (12 * c + i)).run.inService = true →
          (t.e (12 * c + i)).run.pearl = false ∧ (t.e (12 * c + i)).run.idleWait = false) ∧
    (sableOk s = true → Does .sableEntry s fun t => t.sys.sable = true ∧ t.sys.sableEmul = s.sys.attached ∧ t.sys.heldInReset = true ∧
      s.net.devTime + 2000 * 64000 ≤ t.net.devTime ∧ t.mem.ckc = []) ∧
    (s.sys.sable = true → s.sys.sableEmul = true →
      Does .sableWake s fun t => t.sys.sable = false ∧ t.sys.sableEmul = false ∧ t.sys.heldInReset = false ∧
        fld (t.cg rPWRSTAT) 17 19 = 1 ∧ ∀ e, e < 144 → (t.e e).mem.l1d = [] ∧ (t.e e).mem.dcache = []) ∧
    (s.sys.porHeld = false → ∀ w,
      (w.toInt < 1600 → Does (.tjUpdate w) s fun t => t.cg rTJ = w ∧ t.wel.thermArmed = true ∧ t.wel.hotCount = 0 ∧ t.eng = s.eng) ∧
      (1840 < w.toInt → s.wel.hotCount = 1 → s.sys.arbOut ≠ .failed →
        Does (.tjUpdate w) s fun t => t.sys.arbOut = .failed ∧ t.sys.devFailN = false ∧ t.sys.heldInReset = true)) ∧
    (∀ b i, b.toNat = i → s.sys.porHeld = false → bit (s.cg rREFSTAT) 3 = false →
      (fld (s.cg rREFSTAT) 0 0 = i → bit (s.cg rREFSTAT) (2 - i) = true →
        Does (.refInputLost b) s fun t => fld (t.cg rREFSTAT) 0 0 = 1 - i ∧ bit (t.cg rREFSTAT) (1 + i) = false ∧
          bit (t.cg rREFSTAT) 3 = false ∧ t.net.devTime = s.net.devTime + 64000) ∧
      (fld (s.cg rREFSTAT) 0 0 = i → bit (s.cg rREFSTAT) (2 - i) = false →
        Does (.refInputLost b) s fun t => bit (t.cg rREFSTAT) 3 = true ∧ bit (t.cg rREFSTAT) (1 + i) = false) ∧
      (fld (s.cg rREFSTAT) 0 0 ≠ i → bit (s.cg rREFSTAT) (1 + i) = true →
        Does (.standbyReferenceInputLost b) s fun t => bit (t.cg rREFSTAT) (1 + i) = false ∧
          fld (t.cg rREFSTAT) 0 0 = fld (s.cg rREFSTAT) 0 0 ∧ fld (t.cg rFLTREC) 0 2 = 5 ∧ fld (t.cg rFLTREC) 3 10 = i ∧
          fld (t.cg rFLTREC) 11 16 = 0o14)) ∧
    (∀ b i, b.toNat = i → s.sys.porHeld = false → i ∉ s.sys.refRetired →
      Does (.refInputUsable b) s fun t => bit (t.cg rREFSTAT) (1 + i) = true ∧ bit (t.cg rREFSTAT) 3 = false ∧
        (bit (s.cg rREFSTAT) 3 = true → fld (t.cg rREFSTAT) 0 0 = i)) ∧
    (bit (s.cg rREFSTAT) 3 = true → s.sys.porHeld = false → s.sys.arbOut ≠ .failed →
      Does .refHoldTimeout s fun t => t.sys.arbOut = .failed ∧ t.sys.devFailN = false)

/-- R13, R268, R535, R536, R625 to R627, R634, R639: the resets and the failures of the device: what each keeps and what it drives,
and a staged image of another timing class, which a device reset takes up into the octets of the other slot.
The model's own choices and readings in it: log entries 3, 52 and 82. -/
def Obligations.ResetsAndDeviceFailure : Prop :=
  ∀ s,
    let live := ∀ x ∈ s.wel.staged, classOk s x = true ∨ staging s x.kind = true
    let kept := fun (t : State) => t.boot.otp = s.boot.otp ∧ (live → t.boot.slots = s.boot.slots) ∧ t.boot.owner = s.boot.owner ∧
      t.wel.journal = s.wel.journal ∧ t.wel.bankA = s.wel.bankA ∧ t.wel.bankB = s.wel.bankB ∧ t.eng = [] ∧ t.home = Home.reset ∧
      t.rel = Rel.reset ∧ t.movers = [] ∧ t.net = Net.reset ∧ t.pending = s.pending
    let failed := fun (t : State) => kept t ∧ t.mem.dram = s.mem.dram ∧ t.sys.arbOut = .failed ∧ t.sys.devFailN = false ∧
      t.sys.heldInReset = true
    Does .powerOnReset s (fun t => kept t ∧ t.boot.slots = s.boot.slots ∧ t.mem = Mem.reset ∧ t.sys.porHeld = !s.sys.porHeld) ∧
    (s.sys.porHeld = false →
      (s.sys.tap ≠ .extest → Does .deviceReset s fun t => kept t ∧ t.mem.dram = s.mem.dram ∧ t.boot.phase = .idle ∧
        (∀ o, o < 0o20 → t.cg (sramBlk + o) = s.cg (sramBlk + o))) ∧
      (∀ x, s.wel.staged = [x] → x.kind < 3 → classOk s x = false → staging s x.kind = false → s.boot.setMoved = false → vok s = true →
        let i := fld (s.cg bootBlk) 3 3
        let b := slotSet (slotAt s i)
        Does .deviceReset s fun t => slotAt t i = slotAt s i ∧ slotAt t (1 - i) = slotOctets (slotSeq (slotAt s i) + 1)
          { mantle := if x.kind = 0 then x.image else b.mantle, welana := if x.kind = 1 then x.image else b.welana,
            vendor := if x.kind = 2 then x.image else b.vendor }) ∧
      (s.sys.arbOut ≠ .failed →
        (∀ u, Does (.deviceFailure u) s failed) ∧
        (welUp s = true → s.sys.sable = false → Does .watchdogExpiry s failed) ∧
        (s.sys.sable = false → ∀ rail, Does (.supplyFault rail false) s failed) ∧
        (welUp s = true → fld (s.cg rMPSTAT) 1 2 ≠ 2 → Does .mpHeartbeatLost s failed)) ∧
      (s.sys.sable = false → Does (.supplyFault .vddAon true) s fun t => kept t ∧ t.boot.slots = s.boot.slots ∧ t.sys.porHeld = true ∧
        t.mem = Mem.reset)) ∧
    (s.sys.arbOut = .failed → Does .deviceRestart s fun t => t.sys.heldInReset = false ∧ t.sys.devFailN = true ∧
      t.sys.arbOut = .absent ∧ t.eng = s.eng ∧ t.ctl = s.ctl) ∧
    (welUp s = true → fld (s.cg rMPSTAT) 1 2 = 2 →
      Does .mpHeartbeatLost s fun t => fld (t.cg rMPSTAT) 0 0 = 1 - fld (s.cg rMPSTAT) 0 0 ∧ fld (t.cg rMPSTAT) 1 2 = 0 ∧
        tget false t.wel.mpUp (fld (s.cg rMPSTAT) 0 0) = false ∧ t.eng = s.eng ∧ fld (t.cg rFLTREC) 11 16 = 0o13)

namespace Sys2Proof.Claims

open Sys2Proof.Machine

/-- The cold start has read the fuses and the version record (R567). -/
def coldRead (s : State) : State :=
  loadMinver (if s.boot.lifeOpen then s.modOtp (Otp.program fun c => { c with dusOff := true }) else s)

/-- The Welana of slot i passes the verification of the boot sequencer. -/
def welanaPasses (s : State) (i : Nat) : Bool := verifyImage (coldRead s) (slotSet (slotAt s i)).welana 1 = 0

end Sys2Proof.Claims

/-- R54, R65, R566, R567, R576 to R578: the cold start stops where a fuse or the flash fails; otherwise the first slot in the order of
SSEQ whose Welana passes stands in the locked code area of MP0, which is released, and the start waits for memory; where no slot
passes, the recovery loader listens;
memory initialisation sets MEMCFG; the recovery loader announces, answers neighbour solicitations,
takes data from one sender, and installs a set.
The model's own choices and readings in it: log entries 2, 3, 40, 52 and 84. -/
def Obligations.StartAndRecovery : Prop :=
  ∀ s,
    (s.boot.phase = .idle → s.sys.porHeld = false → s.sys.heldInReset = false → s.sys.sable = false → vok s = false →
      (∀ f, Does (.coldStart ⟨false, f⟩) s fun t => t.boot.phase = .halted ∧ fld (t.cg (bootBlk + 1)) 0 5 = 3) ∧
      Does (.coldStart ⟨true, false⟩) s (fun t => t.boot.phase = .halted ∧ fld (t.cg (bootBlk + 1)) 0 5 = 1) ∧
      Does (.coldStart ⟨true, true⟩) s (fun t => t.sys.xspiResetN = true ∧ t.boot.slots = s.boot.slots ∧ t.eng = s.eng ∧ t.mem = s.mem ∧
        match (slotOrder s).find? (welanaPasses s) with
        | some i => t.boot.phase = .waitMem ∧ fld (t.cg bootBlk) 3 3 = i ∧ t.boot.code0 = (slotSet (slotAt s i)).welana ∧
            t.boot.codeLock0 = true ∧ tget false t.wel.mpUp 0 = true
        | none => t.boot.phase = .recovery ∧ fld (t.cg (bootBlk + 1)) 0 5 = 4 ∧ tget false t.wel.mpUp 0 = false ∧
            t.boot.codeLock0 = false) ∧
      (slotGood (slotAt s 0) = false → slotGood (slotAt s 1) = false → slotOrder s = [])) ∧
    (fld (s.cg rMEMCFG) 0 2 = 0 →
      (s.boot.phase = .waitMem → ∀ cap, cap = 0 ∨ 4 < cap → cap < 8 →
        Does (.memoryInitComplete cap) s fun t => t.boot.phase = .halted ∧ fld (t.cg (bootBlk + 1)) 0 5 = 2 ∧ t.mem = s.mem) ∧
      (s.boot.phase = .recovery → ∀ cap, 1 ≤ cap → cap ≤ 4 →
        Does (.memoryInitComplete cap) s fun t => fld (t.cg rMEMCFG) 0 2 = cap ∧
          fld (t.cg rMEMCFG) 5 35 = 8 * [0, 29826161, 59652323, 119304647, 238609294].getD cap 0 ∧ t.sys.memResetN = true ∧
          t.boot.phase = .recovery)) ∧
    (s.boot.phase = .recovery → s.boot.recReset = false →
      Does .recoveryAnnounce s (fun t => (t.boot.recOut.map Prod.fst = some 1) ∧
        t.net.devTime = max s.net.devTime (s.boot.recAnn + 64 * 10 ^ 9)) ∧
      (∀ x off os, s.boot.recSender = some x → os ≠ [] → os.length ≤ 1024 → off + os.length ≤ 8388608 →
        Does (.recoveryData x off os) s fun t => t.boot.recData = s.boot.recData ++ [(off, os)] ∧ t.boot.recSender = some x ∧
          t.boot.recLast = s.net.devTime ∧ (t.boot.recOut.map Prod.fst = some 3)) ∧
      (∀ p f, p < 4 → portEn s p = false → s.sys.heldInReset = false →
        Does (.frameReceived p f) s fun t => t.boot.recNs = (loaderAnswer s p f).or s.boot.recNs) ∧
      (∀ x, s.boot.recSender = some x → Does .recoverySenderTimeout s fun t => t.boot.recSender = none ∧
        t.net.devTime = max s.net.devTime (s.boot.recLast + 60 * 64 * 10 ^ 9)) ∧
      (∀ x len, s.boot.recSender = some x → fld (s.cg rMEMCFG) 0 2 ≠ 0 →
        (∀ f, installCheck s len = .inl f → Does (.recoveryInstall x len) s fun t =>
          t.boot.slots = s.boot.slots ∧ t.boot.recReset = false ∧ (t.boot.recOut.map Prod.fst = some 5)) ∧
        (∀ b, installCheck s len = .inr b → Does (.recoveryInstall x len) s fun t =>
          slotAt t (if slotSeq (slotAt s 0) < slotSeq (slotAt s 1) then 0 else 1) =
            slotOctets (1 + max (slotSeq (slotAt s 0)) (slotSeq (slotAt s 1))) b ∧ t.boot.recReset = true ∧
            (t.boot.recOut.map Prod.fst = some 5)))) ∧
    (s.boot.phase = .recovery → s.boot.recReset = true →
      Does .recoveryLoaderReset s fun t => t.boot.phase = .idle ∧ t.eng = [] ∧
      (s.wel.staged = [] → t.boot.slots = s.boot.slots))

/-- R539, R543, R545 to R549: the roles of a pair: a standby promotes itself on the failed pattern, a primary that sees a second
primary becomes the standby, a planned switchover hands over once nothing is live; the standby's loss of synchronisation; markers and
resynchronisation of the stream; heartbeats, and the loss of a session, with which a standby of it is synchronised no more; a primary
that loses its partner journals event 401.
The model's own choices and readings in it: log entries 2, 3, 34, 35, 38 and 47. -/
def Obligations.PairRoles : Prop :=
  ∀ s,
    (fld (s.cg rPAIRSTAT) 0 1 = 2 →
      Does (.arbInPattern .failed) s fun t => fld (t.cg rPAIRSTAT) 0 1 = 1 ∧ t.sys.arbOut = .primary ∧ t.sys.arbIn = .failed ∧
        bit (t.cg rPAIRSTAT) 6 = false) ∧
    (fld (s.cg rPAIRSTAT) 0 1 = 1 → bit (s.cg rPAIRSTAT) 6 = false →
      Does (.arbInPattern .primary) s fun t => fld (t.cg rPAIRSTAT) 0 1 = 2 ∧ t.sys.arbOut = .standby ∧ t.sys.arbIn = .primary) ∧
    (s.sys.arbIn ≠ .absent → Does .arbInAbsent s fun t => t.sys.arbIn = .absent ∧ fld (t.cg rPAIRSTAT) 2 3 = 0 ∧
      t.net.devTime = s.net.devTime + 2 * 64000 ∧ fld (t.cg rPAIRSTAT) 0 1 = fld (s.cg rPAIRSTAT) 0 1 ∧
        (vok s = true → fld (s.cg rPAIRSTAT) 0 1 = 1 → s.sys.arbIn ≠ .failed → bit (s.cg rPAIRSTAT) 4 = true →
          t.wel.journal.getLast?.map JEntry.cmd = some 0o401 ∧ t.wel.journal.getLast?.map JEntry.detail = some [mkW 7, mkW 0])) ∧
    (∀ at_, s.wel.swAt = some at_ → liveCtxs s = [] → s.rel.waiting = [] →
      Does .switchoverTime s fun t => fld (t.cg rPAIRSTAT) 0 1 = 2 ∧ t.wel.swAt = none ∧ t.sys.arbOut = .standby ∧
        t.net.devTime = max s.net.devTime at_) ∧
    (fld (s.cg rPAIRSTAT) 0 1 = 2 → bit (s.cg rPAIRSTAT) 5 = true →
      Does .standbySyncLost s fun t => bit (t.cg rPAIRSTAT) 5 = false ∧
        t.net.devTime = max s.net.devTime (s.wel.lastEpoch + 2000 * 64000)) ∧
    (fld (s.cg rPAIRSTAT) 0 1 = 1 → bit (s.cg rPAIRSTAT) 4 = true →
      (∀ d, d = (if s.wel.kept.getLast?.map Prod.snd = some (.epoch s.net.devTime) then s.net.devTime + 1 else s.net.devTime) →
        Does .epochMarker s (fun t => t.wel.kept = s.wel.kept ++ [(s.wel.recNext, .epoch d)] ∧ t.net.devTime = d ∧
          t.wel.recSent = (s.wel.recNext + 1) % 2 ^ 32)) ∧
      (bit (s.cg rPAIRSTAT) 7 = true → Does .resynchronisation s fun t => bit (t.cg rPAIRSTAT) 7 = false ∧
        t.wel.recSent = t.wel.recNext ∧ s.wel.kept.length + 2 ≤ t.wel.kept.length)) ∧
    (fld (s.cg rPAIRSTAT) 0 1 = 1 → unacked s ≠ [] →
      Does .pairsyncRetransmit s fun t => t.wel.kept = s.wel.kept ∧ t.net.devTime = max s.net.devTime (s.wel.progAt + 100 * 64000) ∧
        fld (t.cg (rPAIRSTAT + 1)) 18 35 = min 262143 (fld (s.cg (rPAIRSTAT + 1)) 18 35 + (unacked s).length)) ∧
    (∀ x a pre r post, s.net.inq = [x] → x.ty = 128 + ttPairsync → x.payload = beOctets 4 a → a < 2 ^ 32 →
      fld (s.cg rPAIRSTAT) 0 1 = 1 → s.wel.kept = pre ++ (a, r) :: post → s.wel.recSent ≠ a → (∀ p ∈ pre, p.1 ≠ s.wel.recSent ∧ p.1 ≠ a) →
      Does .pairsyncAck s fun t => t.net.inq = [] ∧ t.wel.ackd = a ∧ t.wel.kept = post) ∧
    (∀ x at_, s.net.inq = [x] → x.ty = ttPairsync → fld (s.cg rPAIRSTAT) 0 1 = 2 → s.wel.inStream = false →
      x.payload = beOctets 4 1 ++ [1] ++ [4] ++ packWords [timeHi at_, timeLo at_] → s.wel.held = [] → at_ ≠ s.wel.lastEpoch →
      at_ < 2 ^ 36 * 64 * 10 ^ 9 →
      (bit (s.cg rPAIRSTAT) 5 = false ∨ s.wel.partnerRole ≠ 2 →
        Does .pairsync s fun t => t.net.inq = [] ∧ t.wel.applied = 1 ∧ t.wel.inStream = true ∧ t.wel.lastEpoch = at_) ∧
      (bit (s.cg rPAIRSTAT) 5 = true → s.wel.partnerRole = 2 → s.sys.arbIn = .standby → bit (s.cg rPAIRSTAT) 4 = true →
        Does .pairsync s fun t => t.net.inq = [] ∧ fld (t.cg rPAIRSTAT) 0 1 = 1 ∧ t.sys.arbOut = .primary)) ∧
    (∀ n, n < 16384 → sesValid s n = true → hbInt s n ≠ 0 →
      (sesKind s n ≠ 3 → Does (.heartbeatSend n) s fun t =>
        t.net.devTime = max s.net.devTime (tget 0 s.net.hbSent n + hbInt s n) ∧ tget 0 t.net.hbSent n = t.net.devTime) ∧
      (sesUp s n = true → Does (.sessionDown n) s fun t => sesUp t n = false ∧
        t.net.devTime = max s.net.devTime (tget 0 s.net.hbSilent n + hbLoss s n * hbInt s n) ∧
        (sesKind s n = 2 → n = s.wel.partner → bit (t.cg rPAIRSTAT) 4 = false ∧ bit (t.cg rPAIRSTAT) 5 = false)))

namespace Sys2Proof.Claims

/-- The access was accepted, or declared failed with cause 2, which changes nothing but the answer. -/
def Refused (s t : State) : Prop := t = { s with answer := .failed 2 }

/-- What a plain write leaves in a register (R12), bit by bit: a read/write bit takes what is written, a write-one-clear bit is
cleared by a 1, and every other bit stays. No other word of the control window changes. -/
def Written (a : RegAcc) (off : Nat) (w : Word) (s t : State) : Prop :=
  (∀ b, b < 36 → bit (t.cg off) b =
    if bit a.rw b then bit w b else if bit a.w1c b then bit (s.cg off) b && !bit w b else bit (s.cg off) b) ∧
  ∀ o, o ≠ off → t.cg o = s.cg o

end Sys2Proof.Claims

/-- R12, R121, R214, R271, R299, R361, R362, R484, R485, R493: what writes and reads of registers from outside do, and which of them are
declared failed; the debug mailbox is read by the debug bus master alone; a command with an unassigned code is answered 01.
The model's own choices and readings in it: log entries 13, 19 and 49. -/
def Obligations.RegisterAccesses : Prop :=
  ∀ s ag, agOk ag = true →
    (∀ off a w, (sramBlk + 0o400 ≤ off ∧ off < dbgBlk ∨ mcBlk 0 ≤ off ∧ off < relBlk) → ctlAcc off = some a → a.rw &&& a.w1c = 0 →
      Does (.registerWrite ag off w) s fun t => Written a off w s t ∧ t.answer = .ok ∧ t.eng = s.eng ∧ t.mem = s.mem) ∧
    (∀ off w, (sramBlk ≤ off ∧ off < sramBlk + 0o400 ∨ mcBlk 0 ≤ off ∧ off < relBlk ∧ ctlAcc off = none) → Does (.registerWrite ag off w) s (Refused s)) ∧
    (∀ i w, i < 262144 → lockedWin s (ctlBase + (bootSramBlk + i)) = false →
      Does (.registerWrite ag (bootSramBlk + i) w) s fun t => t.answer = .ok ∧ t.ctl = s.ctl ∧ t.mem.dram = s.mem.dram ∧
        ∀ j, tget 0 t.mem.bootSram j = if j = i then w else tget 0 s.mem.bootSram j) ∧
    (∀ i w, i < 262144 → lockedWin s (ctlBase + (bootSramBlk + i)) = true →
      Does (.registerWrite ag (bootSramBlk + i) w) s (Refused s)) ∧
    (∀ k i w, k < 16384 → 12 < i → i < 32 →
      Does (.contextRecordWrite ag k i w) s fun t => t.answer = .ok ∧ t.eng = s.eng ∧
        ∃ a, ctlAcc (rCtx k i) = some a ∧ Written a (rCtx k i) w s t) ∧
    (∀ k w, k < 16384 → fld (s.cg (rCtx k 0)) 12 14 ≤ 1 → fld w 12 14 ≤ 1 → bit w 22 = false →
      Does (.contextRecordWrite ag k 0 w) s fun t => t.answer = .ok ∧ fld (t.cg (rCtx k 0)) 0 22 = fld w 0 22 ∧
        ∀ o, o ≠ rCtx k 0 → t.cg o = s.cg o) ∧
    (∀ tn i a w, tn < 4096 → i < 8 → ctlAcc (rTen tn i) = some a →
      (mOnly (agLevel s ag) ag = true → Does (.tenantRecordWrite ag (rTen tn i) w) s fun t => t.answer = .ok ∧ Written a (rTen tn i) w s t) ∧
      (mOnly (agLevel s ag) ag = false → Does (.tenantRecordWrite ag (rTen tn i) w) s (Refused s))) ∧
    (∀ w, (mOnly (agLevel s ag) ag = true → Does (.rsvcfgWrite ag w) s fun t => t.answer = .ok ∧ fld (t.cg rRSVCFG) 0 1 = fld w 0 1 ∧
        ∀ e, e < 144 → (t.e e).mem.resv = none) ∧
      (mOnly (agLevel s ag) ag = false → Does (.rsvcfgWrite ag w) s (Refused s))) ∧
    (∀ e w, e < 144 → bit w 1 = true → Does (.pctlClear ag e w) s fun t => t.answer = .ok ∧ (∀ k, k < 26 → t.cg (rPerf e + k) = 0) ∧
      bit (t.cg (rPCTL e)) 0 = bit w 0 ∧ fld (t.cg (rPCTL e)) 2 5 = fld w 2 5 ∧ bit (t.cg (rPCTL e)) 1 = bit (s.cg (rPCTL e)) 1 ∧
      ∀ o, o ≠ rPCTL e → ¬ (rPerf e ≤ o ∧ o < rPerf e + 26) → t.cg o = s.cg o) ∧
    (∀ off a, off < 0o100000000 → ctlAcc off = some a → dblClears off = false → ag = .debug ∨ dbgOnly off = false →
      (readClears s ag = true → Does (.readClear ag off false) s fun t => t.answer = .read [cwWord s off &&& (a.ro ||| a.rw ||| a.w1c ||| a.rc)] ∧
        (∀ b, b < 36 → bit (t.cg off) b = if bit a.rc b then bit (ctlReset off) b else bit (s.cg off) b) ∧
        ∀ o, o ≠ off → t.cg o = s.cg o) ∧
      (readClears s ag = false → Does (.readClear ag off false) s fun t =>
        t.answer = .read [cwWord s off &&& (a.ro ||| a.rw ||| a.w1c ||| a.rc)] ∧ t.ctl = s.ctl)) ∧
    (∀ off, off < 0o100000000 → ctlAcc off = none ∨ ag ≠ .debug ∧ dbgOnly off = true →
      Does (.readClear ag off false) s (Refused s)) ∧
    (∀ n w, n < 4096 →
      let m := s.cgs (rMbx n) (min 32 (1 + fld (s.cg (rMbx n)) 9 17))
      (bit w 0 = true → bit (s.cg (rMbx n + 95)) 0 = false →
        welIdle s = false ∨ cmdAssigned (msgCmd m) = true ∧ (∀ c ∈ s.wel.queue, cmdAssigned (msgCmd c.msg) = true) →
        Does (.mailboxDoorbell ag (.tenant n) w) s fun t => t.answer = .ok ∧ bit (t.cg (rMbx n + 95)) 0 = true ∧
          t.wel.queue = s.wel.queue ++ [⟨.tenant n, m⟩]) ∧
      (bit w 0 = true → bit (s.cg (rMbx n + 95)) 0 = false → welIdle s = true → s.wel.queue = [] → cmdAssigned (msgCmd m) = false →
        Does (.mailboxDoorbell ag (.tenant n) w) s fun t => t.answer = .ok ∧ bit (t.cg (rMbx n + 95)) 0 = false ∧
          t.wel.queue = [] ∧ t.cg (rMbx n + 32) = resHead (msgCmd m) 0 1 0) ∧
      (bit w 0 = true → bit (s.cg (rMbx n + 95)) 0 = true → Does (.mailboxDoorbell ag (.tenant n) w) s (Refused s)))

/-- R551, R562 to R564, R581: the lock windows, and the fuses that FCMD blows.
The model's own choices and readings in it: log entries 13, 19 and 84. -/
def Obligations.LocksAndFuses : Prop :=
  ∀ s,
    (∀ i, i < 16 →
      (bit (s.cg (rLKW i)) 0 = false → lkwOk s i = true → Does (.lkwLock .mgmt i) s fun t => t.answer = .ok ∧
        bit (t.cg (rLKW i)) 0 = true ∧ fld (t.cg (rLKW i + 1)) 1 35 = fld (s.cg (rLKW i + 1)) 1 35 ∧ t.cg (rLKW i + 2) = s.cg (rLKW i + 2) ∧
        ∀ e x, x ∈ (t.e e).mem.l1d → x.st ≠ .t → lockedWin t (8 * x.line) = false) ∧
      (bit (s.cg (rLKW i)) 0 = false → lkwOk s i = false → Does (.lkwLock .mgmt i) s (Refused s)) ∧
      (bit (s.cg (rLKW i)) 0 = true → bit (s.cg (rLKW i)) 1 = true → Does (.lkwRelease .mgmt i) s fun t => t.answer = .ok ∧
        bit (t.cg (rLKW i)) 0 = false ∧ t.eng = s.eng ∧ t.mem = s.mem) ∧
      (∀ ag, agOk ag = true → ag ≠ .mgmt → Does (.lkwLock ag i) s (Refused s) ∧ Does (.lkwRelease ag i) s (Refused s))) ∧
    (∀ n, n < 4 →
      (lifeState s = 0 → slotValue s .owner n = none →
        Does (.programOwnerSlot .debug n) s fun t => t.answer = .ok ∧ fld (t.cg rFSTAT) 1 6 = 0 ∧
          t.boot.otp.okey n = octetsOf (s.cgs (bootBlk + 0o10) 12) ∧ t.boot.otp.sealed = s.boot.otp.sealed) ∧
      (lifeState s = 0 → slotValue s .owner n ≠ none →
        Does (.programOwnerSlot .debug n) s fun t => fld (t.cg rFSTAT) 1 6 = 2 ∧ t.boot = s.boot) ∧
      (lifeState s = 0 → slotValue s .owner n ≠ none →
        Does (.seal .debug) s fun t => t.answer = .ok ∧ fld (t.cg rFSTAT) 1 6 = 0 ∧ t.boot.otp.sealed = true ∧ provOk t = true ∧
          t.boot.prov.wkey = aesWrap (storeKey s) (octetsOf (s.cgs (bootBlk + 0o10) 8)) ∧
          t.boot.prov.salt = octetsOf (s.cgs (bootBlk + 0o20) 1) ∧ lifeState t = lifeState s)) ∧
    (lifeState s = 0 → (∀ n, n < 4 → slotValue s .owner n = none) →
      Does (.seal .debug) s fun t => fld (t.cg rFSTAT) 1 6 = 3 ∧ t.boot = s.boot) ∧
    (lifeState s ≠ 0 → Does (.seal .debug) s (fun t => fld (t.cg rFSTAT) 1 6 = 1 ∧ t.boot = s.boot) ∧
      ∀ n, n < 4 → Does (.programOwnerSlot .debug n) s fun t => fld (t.cg rFSTAT) 1 6 = 1 ∧ t.boot = s.boot) ∧
    (let w := octetsOf (s.cgs (bootBlk + 0o4000) 2048)
      let serial := (unpackWords 2 (imgBody w)).foldl (fun a x => a * 2 ^ 36 + x.toNat) 0
      (lifeState s = 1 ∨ lifeState s = 2 → verifyImage s w 5 = 0 → serial = otpSerial →
        Does (.openI .debug) s fun t => t.answer = .ok ∧ fld (t.cg rFSTAT) 1 6 = 0 ∧ t.boot.otp.openF = true) ∧
      (lifeState s = 1 ∨ lifeState s = 2 → verifyImage s w 5 ≠ 0 ∨ serial ≠ otpSerial →
        Does (.openI .debug) s fun t => fld (t.cg rFSTAT) 1 6 = 4 ∧ t.boot = s.boot) ∧
      (lifeState s = 0 ∨ lifeState s = 3 → Does (.openI .debug) s fun t => fld (t.cg rFSTAT) 1 6 = 1 ∧ t.boot = s.boot)) ∧
    (∀ ag, agOk ag = true → ag ≠ .debug → Does (.seal ag) s (Refused s) ∧ Does (.openI ag) s (Refused s))

/-- R391, R395 to R406, R523: arming and disarming a channel, the start of a transfer (which reads two descriptors), its end, an abort, an unanswered request and
the failure of a mover.
The model's own choices and readings in it: log entries 2, 3, 29, 30, 76, 91 and 102. -/
def Obligations.MoverTransfers : Prop :=
  ∀ s c n, c < 12 → n < 16 →
    (∀ ag, agOk ag = true → mOnly (agLevel s ag) ag = true ∨ chBound s c n = true → (s.mover c).retired = false →
      (armed s c n false = false → Does (.moverArm ag c n false) s fun t => armed t c n false = true ∧ t.answer = .ok ∧
        (t.mover c).queue = (s.mover c).queue ++ [n] ∧ (t.mover c).cur = (s.mover c).cur ∧ t.home = s.home) ∧
      (armed s c n false = true → armed s c n true = false → Does (.moverArm ag c n true) s fun t => armed t c n true = true ∧
        armed t c n false = true ∧ t.answer = .ok ∧ t.movers = s.movers) ∧
      (armed s c n false = false → armed s c n true = false → Does (.moverArm ag c n true) s fun t => armed t c n true = false ∧
        armed t c n false = true ∧ t.answer = .ok ∧ (t.mover c).queue = (s.mover c).queue ++ [n] ∧
        ∀ i, i < 4 → t.cg (chSet c n false + i) = s.cg (chSet c n true + i)) ∧
      (∀ sh, armed s c n sh = true → Does (.moverArm ag c n sh) s (Refused s)) ∧
      Does (.shadowDisarm ag c n) s (fun t => armed t c n true = false ∧ armed t c n false = armed s c n false ∧ t.answer = .ok ∧
        t.movers = s.movers) ∧
      (armed s c n false = true → (s.mover c).cur.map Transfer.ch ≠ some n → armed s c n true = false →
        Does (.moverAbort ag c n) s fun t => armed t c n false = false ∧ n ∉ (t.mover c).queue ∧ t.answer = .ok ∧
          fld (t.cg (rCHSTAT c n)) 3 7 = 0o14 ∧ fld (t.cg (rCHSTAT c n)) 8 23 = (fld (s.cg (rCHSTAT c n)) 8 23 + 1) % 65536) ∧
      (∀ x, armed s c n false = true → (s.mover c).cur = some x → x.ch = n →
        Does (.moverAbort ag c n) s fun t => (t.mover c).cur = some { x with aborting := true } ∧ armed t c n false = true)) ∧
    (∀ ag, agOk ag = true → mOnly (agLevel s ag) ag = false → chBound s c n = false → ∀ sh,
      Does (.moverArm ag c n sh) s (Refused s) ∧ Does (.moverAbort ag c n) s (Refused s) ∧ Does (.shadowDisarm ag c n) s (Refused s)) ∧
    (∀ q, (s.mover c).queue = n :: q → (s.mover c).cur = none → (s.mover c).retired = false → stopAll_ s = false →
      let a := chSet c n false
      let cnt := fld (s.cg (a + 3)) 6 35
      let sw := extWords (bit (s.cg a) 16) (s.cg (a + 1)).toNat cnt
      let dw := extWords (bit (s.cg a) 16) (s.cg (a + 2)).toNat cnt
      let tn := fld (s.cg (rMVBIND c n)) 0 11
      let u := if cnt = 0 then s else descTouch (.mover c) tn (fld (s.cg a) 8 15) (descTouch (.mover c) tn (fld (s.cg a) 0 7) s)
      let ck := startChecks u c n (fld (s.cg a) 0 7) (fld (s.cg a) 8 15) sw.1 sw.2 dw.1 dw.2
      Does (.transferStart c) s fun t => (t.mover c).queue = q ∧ fld (t.cg (rCHSTAT c n)) 0 1 = 2 ∧ t.cg (rCHPROG c n) = 0 ∧ t.eng = u.eng ∧
        (∀ e, (t.e e).regs = (s.e e).regs) ∧ t.mem.dram = u.mem.dram ∧ ∃ x, (t.mover c).cur = some x ∧ x.ch = n ∧ x.count = cnt ∧ x.aborting = false ∧ x.awaitR.length + x.awaitW.length ≤ 16 ∧
          (cnt = 0 → x.err = 0 ∧ x.toRead = [] ∧ x.toWrite = [] ∧ x.awaitR = [] ∧ x.awaitW = [] ∧ t.home = s.home) ∧
          (∀ e, cnt ≠ 0 → ck = .inl e → x.err = e ∧ x.awaitR = [] ∧ x.awaitW = [] ∧ t.home = u.home) ∧
          (∀ p, cnt ≠ 0 → ck = .inr p → x.err = 0 ∧ x.srcW = p.1 ∧ x.dstW = p.2)) ∧
    (∀ x, (s.mover c).cur = some x → x.ch = n →
      (x.awaitR = [] → x.awaitW = [] → armed s c n true = false →
        (x.err ≠ 0 ∨ x.aborting = true ∨ x.toRead = [] ∧ x.toWrite = []) →
        Does (.transferEnd c) s fun t => (t.mover c).cur = none ∧ armed t c n false = false ∧
          fld (t.cg (rCHSTAT c n)) 3 7 = (if x.err ≠ 0 then x.err % 32 else if x.aborting then 0o14 else 0) ∧
          fld (t.cg (rCHSTAT c n)) 8 23 = (fld (s.cg (rCHSTAT c n)) 8 23 + 1) % 65536 ∧ fld (t.cg (rCHSTAT c n)) 0 1 = 0) ∧
      (∀ l d, x.awaitR = [(l, d)] → x.awaitW = [] → armed s c n true = false →
        Does (.transferEnd c) s (fun t => t = s) ∧
        Does (.moverRequestTimeout c) s fun t => (t.mover c).cur = none ∧ fld (t.cg (rCHSTAT c n)) 3 7 = 0o13 ∧
          t.net.devTime = max s.net.devTime d)) ∧
    ((s.mover c).retired = false →
      Does (.moverFailure c) s fun t => (t.mover c).retired = true ∧ (t.mover c).queue = [] ∧ (t.mover c).cur = none ∧
        fld (t.cg rFLTREC) 0 2 = 6 ∧ fld (t.cg rFLTREC) 3 10 = c ∧ fld (t.cg rFLTREC) 11 16 = 0o15 ∧
        t.net.devTime = s.net.devTime + 64000 ∧
        (armed s c n false = true → armed s c n true = false → armed t c n false = false ∧ fld (t.cg (rCHSTAT c n)) 3 7 = 0o16))

/-- R423 to R425, R435, R437, R646: a gate list advances, its change is armed and taken; a step and the rate of device time.
The model's own choices and readings in it: log entries 2, 3, 31, 43, 86 and 103. -/
def Obligations.GatesAndDeviceTime : Prop :=
  ∀ s,
    (∀ st i, gateNumOk st i = true →
      (∀ g, gateRun s st i = some g →
        let r := gAt s st i g s.net.devTime
        (r.1 ≠ g.idx → Does (.gateEntryAdvance st i) s fun t => gateRun t st i = some { g with idx := r.1 } ∧
          t.net.devTime = s.net.devTime ∧ t.ctl = s.ctl) ∧
        (r.1 = g.idx → Does (.gateEntryAdvance st i) s fun t =>
          gateRun t st i = some { g with idx := (gAt s st i g r.2).1 } ∧ t.net.devTime = max s.net.devTime r.2 ∧ t.ctl = s.ctl)) ∧
      (∀ at_, gateChg s st i = some at_ →
        let c := rGctl st i
        Does (.gateChangeTime st i) s fun t => t.net.devTime = max s.net.devTime at_ ∧ gateChg t st i = none ∧
          bit (t.cg c) 2 = false ∧ (st = false → fld (t.cg c) 1 1 = 1 - fld (s.cg c) 1 1) ∧
          (bit (s.cg c) 0 = true → gateRun t st i = some
            ⟨ofTime (s.cg (c + 2)) (s.cg (c + 3)), fld (s.cg (c + 1)) 6 35 * 64, fld (s.cg c) 4 12,
              if st then 0 else 1 - fld (s.cg c) 1 1, 0, none⟩)) ∧
      (∀ ag w, agOk ag = true →
        let c := rGctl st i
        let first := s.net.devTime + 1000 * 64000
        let base := ofTime (s.cg (c + 2)) (s.cg (c + 3))
        let cycle := fld (s.cg (c + 1)) 6 35 * 64
        (mOnly (agLevel s ag) ag = true → bit (s.cg c) 2 = false → bit w 3 = true → chgOk s st i (fld w 4 12) = true →
          Does (.gateChangeArm ag st i w) s fun t => t.answer = .ok ∧ bit (t.cg c) 2 = true ∧ bit (t.cg c) 0 = bit w 0 ∧
            fld (t.cg c) 4 12 = fld w 4 12 ∧ t.net.devTime = s.net.devTime ∧
            ∃ at_ m, gateChg t st i = some at_ ∧ at_ = base + m * cycle ∧ first ≤ at_ ∧ (m = 0 ∨ at_ < first + cycle)) ∧
        (mOnly (agLevel s ag) ag = true → bit w 3 = true → bit (s.cg c) 2 = true ∨ chgOk s st i (fld w 4 12) = false →
          Does (.gateChangeArm ag st i w) s (Refused s)) ∧
        (mOnly (agLevel s ag) ag = false → Does (.gateChangeArm ag st i w) s (Refused s)))) ∧
    (∀ ag, agOk ag = true → ∀ hi lo w,
      (mOnly (agLevel s ag) ag = true →
        (bit (s.cg rRUCTL) 0 = false → Does (.deviceTimeStep ag hi lo) s fun t =>
          t.net.devTime = hi.toNat * (64 * 10 ^ 9) + lo.toNat ∧ t.answer = .ok ∧ t.eng = s.eng) ∧
        (bit (s.cg rRUCTL) 0 = true → Does (.deviceTimeStep ag hi lo) s (Refused s)) ∧
        (w.toInt.natAbs ≤ 219902325 → Does (.deviceTimeRate ag w) s fun t => t.cg rDTRATE = w ∧ t.answer = .ok ∧ t.net = s.net) ∧
        (219902325 < w.toInt.natAbs → Does (.deviceTimeRate ag w) s (Refused s))) ∧
      (mOnly (agLevel s ag) ag = false → Does (.deviceTimeStep ag hi lo) s (Refused s) ∧ Does (.deviceTimeRate ag w) s (Refused s)))

namespace Sys2Proof.Claims

/-- Welana can take up the message now (R490): nothing of its own is ahead of it, and the message is the next in the queue, or the
queue is empty. -/
def Turn (src : MbSrc) (msg : List Word) (s : State) : Prop :=
  welIdle s = true ∧ (s.wel.queue = [] ∨ nextCmd s = some ⟨src, msg⟩)

/-- The state in which Welana begins the command: the message has left the queue, and QLEN counts the command that runs. -/
def begun (src : MbSrc) (msg : List Word) (s : State) : State := if s.wel.queue = [] then running s else takeCmd ⟨src, msg⟩ s

/-- A result that begins with these words stands where its sender finds it (R482 to R484, R468), and the mailbox shows DONE. -/
def Posted (src : MbSrc) (ws : List Word) (t : State) : Prop :=
  match src with
  | .tenant n => t.cgs (rMbx n + 32) ws.length = ws ∧ fld (t.cg (rMbx n + 95)) 0 1 = 1
  | .network n => ∃ r, (tget .reset t.net.mbx n).ready = some (ws ++ r)
  | .debug => t.cgs (rDbgMbx + 0o1000) ws.length = ws ∧ fld (t.cg (rDbgMbx + 0o3777)) 0 1 = 1

/-- The deltas of each bank of the store rise in JSEQ, and no JSEQ lies beyond the last journal entry, but for the first after a base
(R510, R512). It holds in every run: statement StoreKeepsItsOrder. -/
def StoreOrder (s : State) : Prop :=
  ∀ b ∈ [s.wel.bankA, s.wel.bankB], (b.deltas.map Delta.jseq).Pairwise (· < ·) ∧
    ∀ d ∈ b.deltas, b.jseq < d.jseq ∧ d.jseq ≤ max s.wel.jnext (b.jseq + 1)

/-- The checks 1 to 13 answer a change, admission passes where the change needs it, no class L command of the same code runs (R493), and
the command changes something (R491, R504). -/
def Passed (cls : CmdClass) (msg : List Word) (p : Plan) (u : State) (c : Chg) : Prop :=
  p = .chg c ∧ admitChg c u = none ∧ (cls = .l → ∀ j ∈ u.wel.ljobs, j.code ≠ msgCmd msg) ∧ (cls = .l ∨ c.apply u ≠ u)

/-- The state after step 3 of R491: the command is in the journal. -/
def journaled (src : MbSrc) (msg : List Word) (hide : Nat → Bool) (u : State) : State := jCommand src msg (msgTen src msg) hide u

/-- The answer is posted, and nothing else that the command could change has changed. -/
def Answered (src : MbSrc) (ws : List Word) (u t : State) : Prop :=
  Posted src ws t ∧ t.eng = u.eng ∧ t.mem = u.mem ∧ t.home = u.home ∧ t.wel.ljobs = u.wel.ljobs ∧ t.boot = u.boot

/-- A management command that changes state: accepted, it is journaled, has its effect, and posts its result unless it is of class L; where
it changes nothing, it posts its result and is not journaled; refused, it posts the error and changes nothing; where its delta fails to
program, its entry is withdrawn by event 417 (R491). `hide` gives the words kept from the journal, `prep` what leaves the mailbox first
(R501). -/
def RunsWith (hide : Nat → Bool) (prep : MbSrc → State → State) (code : Nat) (cls : CmdClass)
    (plan : Bool → MbSrc → List Word → State → Plan) (i : MbSrc → List Word → Instr)
    (eff : MbSrc → List Word → Chg → State → State → Prop) (s : State) : Prop :=
  ∀ src msg, manOk code src msg = true → Turn src msg s →
    (code = 0o23 → sealWaits src msg s = false) → (code = 0o24 → unsealWaits src msg s = false) →
    let p := plan false src msg (begun src msg s)
    let u := prep src (begun src msg s)
    let j := journaled src msg hide u
    (∀ c, Passed cls msg p u c → deltaBad c j = false → StoreOrder u → Does (i src msg) s fun t =>
      u.wel.jnext < t.wel.jnext ∧ (cls ≠ .l → Posted src (resHead code c.res.length 0 0 :: c.res) t) ∧ eff src msg c u t) ∧
    (∀ c, cls ≠ .l → p = .chg c → admitChg c u = none → c.apply u = u → Does (i src msg) s fun t =>
      Answered src (resHead code c.res.length 0 0 :: c.res) u t ∧ t.wel.journal = u.wel.journal) ∧
    (∀ e d, p = .err e d → Does (i src msg) s fun t => Answered src [resHead code 0 e d] u t ∧ t.wel.journal = u.wel.journal) ∧
    (∀ c pool, p = .chg c → admitChg c u = some pool → Does (i src msg) s fun t =>
      Answered src [resHead code 0 9 pool] u t ∧ t.wel.journal = u.wel.journal) ∧
    (∀ c, Passed cls msg p u c → deltaBad c j = true → Does (i src msg) s fun t =>
      Answered src [resHead code 0 0o17 0] u t ∧ ∃ e ∈ t.wel.journal, e.seqno = t.wel.jnext ∧ e.cmd = 0o417 ∧ e.src = 0)

/-- The same for a command whose operands hold no key. -/
def Runs : Nat → CmdClass → (Bool → MbSrc → List Word → State → Plan) → (MbSrc → List Word → Instr) →
    (MbSrc → List Word → Chg → State → State → Prop) → State → Prop := RunsWith noHide fun _ s => s

/-- Object `key` of type `ty` in the configuration store is as given (R509). -/
def Stored (t : State) (ty : Nat) (key : List Nat) (ws : Option (List Word)) : Prop := storeGet t ty key = ws

end Sys2Proof.Claims

/-- R361, R381, R382, R388, R485, R497: TENANT CREATE, SET, RETIRE, SEAL and UNSEAL, and the ends of a retirement and of a shed
tenant's dedication. A channel of a tenant that retires is unbound when its running transfer has ended.
The model's own choices and readings in it: log entries 38, 49, 77, 89 and 91. -/
def Obligations.TenantCommands : Prop :=
  ∀ s,
    Runs 0o20 .c planTenantCreate .tenantCreate (fun src msg _ _ t =>
      let n := msgTen src msg
      tenState t n = 1 ∧ fld (t.cg (rTen n 0)) 9 12 = fld (opW msg 1) 0 3 ∧ fld (t.cg (rTen n 0)) 13 16 = fld (opW msg 1) 4 7 ∧
        quotaOf t n = ⟨fld (opW msg 1) 8 22, fld (opW msg 2) 0 17, fld (opW msg 2) 18 25, fld (opW msg 2) 26 28⟩ ∧
        noticesOf t n = [] ∧ Stored t 2 [n, 255] (some [(mbxDesc n).1, (mbxDesc n).2])) s ∧
    Runs 0o22 .c planTenantSet .tenantSet (fun src msg _ u t =>
      let n := msgTen src msg
      tenState t n = tenState u n ∧ fld (t.cg (rTen n 0)) 9 12 = fld (opW msg 1) 0 3 ∧
        fld (t.cg (rTen n 0)) 13 16 = fld (opW msg 1) 4 7 ∧
        quotaOf t n = ⟨fld (opW msg 1) 8 22, fld (opW msg 2) 0 17, fld (opW msg 2) 18 25, fld (opW msg 2) 26 28⟩ ∧ t.eng = u.eng) s ∧
    Runs 0o21 .l planTenantRetire .tenantRetire (fun src msg _ _ t =>
      let n := msgTen src msg
      tenState t n = 3 ∧ (∀ p ∈ tenChans t n, ∃ x, (t.mover p.1).cur = some x ∧ x.ch = p.2 ∧ x.unbind = true) ∧ ∃ j ∈ t.wel.ljobs, j.code = 0o21 ∧ j.b = n ∧ j.src = src) s ∧
    (∀ n, n < 4096 → tenState s n = 3 →
      (tenLive s n = false → Does (.tenantRetireComplete n) s fun t => tenState t n = 0 ∧ quotaOf t n = .reset ∧ noticesOf t n = [] ∧
        (vok s = true → s.wel.jnext < t.wel.jnext)) ∧
      (tenLive s n = true → Does (.tenantRetireComplete n) s fun t => t = s)) ∧
    Runs 0o23 .c planTenantSeal .tenantSeal (fun src msg c _ t =>
      let n := msgTen src msg
      tenSealed t n = true ∧ c.res = [mkW (tenSidx t n)] ∧
        ∀ e ∈ maskNums ((msg.drop 1).take 4), bit (t.cg (rDEDIC e)) 0 = true ∧ fld (t.cg (rDEDIC e)) 1 6 = tenSidx t n ∧
          fld (t.cg (rDEDIC e)) 7 18 = n) s ∧
    Runs 0o24 .c planTenantUnseal .tenantUnseal (fun src msg _ u t =>
      let n := msgTen src msg
      tenSealed t n = false ∧ ∀ e ∈ poolEngs u (.sealed_ (tenSidx u n)), t.cg (rDEDIC e) = 0) s ∧
    (∀ n, n < 4096 → tenState s n = 2 → tenSealed s n = true → tenLive s n = false →
      Does (.shedResourcesFree n) s fun t => (∀ e ∈ poolEngs s (.sealed_ (tenSidx s n)), t.cg (rDEDIC e) = 0) ∧
        t.cg (rTen n 3) = 0 ∧ t.cg (rTen n 4) = 0 ∧ t.eng = s.eng)

/-- R270, R271, R456, R499, R500: the commands on segments, contexts and bindings.
The model's own choices and readings in it: log entries 38, 49, 78 and 89. -/
def Obligations.SegmentAndContextCommands : Prop :=
  ∀ s,
    Runs 0o40 .c planSegmentAllocate .segmentAllocate (fun src msg c _ t =>
      let n := msgTen src msg
      ∃ d0 d1, Stored t 2 [n, fld (opW msg 1) 0 7] (some [d0, d1]) ∧ fld d1 0 2 = fld (opW msg 1) 8 10 ∧ fld d1 3 5 = fld (opW msg 1) 11 13 ∧
        fld d1 6 17 = n ∧ fld d1 18 19 = fld (opW msg 1) 14 15 ∧ (opW msg 2).toNat ≤ descSize d1 ∧ descSize d1 = (c.res.headD 0).toNat) s ∧
    Runs 0o41 .c planSegmentFree .segmentFree (fun src msg _ _ t => Stored t 2 [msgTen src msg, fld (opW msg 1) 0 7] none) s ∧
    Runs 0o42 .c planSegmentResize .segmentResize (fun src msg c u t =>
      let n := msgTen src msg
      let old := cfgDesc u n (fld (opW msg 1) 0 7)
      ∃ d1, Stored t 2 [n, fld (opW msg 1) 0 7] (some [old.1, d1]) ∧ fld d1 0 19 = fld old.2 0 19 ∧
        (opW msg 2).toNat ≤ descSize d1 ∧ descSize d1 = (c.res.headD 0).toNat) s ∧
    Runs 0o60 .c planContextCreate .contextCreate (fun src msg c u t =>
      ∃ k, k < 16384 ∧ c.res = [mkW k] ∧ ctxState u k = 0 ∧ ctxState t k = 1 ∧ ctxTenant t k = msgTen src msg ∧
        ∀ i, 1 ≤ i → i ≤ 12 → t.cg (rCtx k i) = opW msg (i + 1)) s ∧
    Runs 0o61 .c planContextSet .contextSet (fun _ msg _ u t =>
      let k := (opW msg 1).toNat
      ctxState t k = ctxState u k ∧ ctxTenant t k = ctxTenant u k ∧ ∀ i, 1 ≤ i → i ≤ 12 → t.cg (rCtx k i) =
        if bit (opW msg 2) i then opW msg (3 + ((List.range i).filter fun j => bit (opW msg 2) j).length) else u.cg (rCtx k i)) s ∧
    Runs 0o62 .c planContextArm .contextArm (fun _ msg c _ t =>
      let k := (opW msg 1).toNat
      ctxState t k = 2 ∧ ctxDis t k = false ∧ c.res = [t.cg (rCtx k 13), t.cg (rCtx k 14)] ∧
        (dbl (opW msg 2) (opW msg 3) ≠ 0 → t.cg (rCtx k 13) = opW msg 2 ∧ t.cg (rCtx k 14) = opW msg 3)) s ∧
    (∀ src msg, manOk 0o63 src msg = true → Turn src msg s →
      let u := begun src msg s
      let k := (opW msg 1).toNat
      (∀ c, planContextDisarm false src msg u = .chg c →
        (disarm k u = u ∧ ∀ ws, storeGet u 3 [k] = some ws → fld (ws.headD 0) 12 14 ≠ 2) ∨ deltaBad c (journaled src msg noHide u) = false →
        Does (.contextDisarm src msg) s fun t => Posted src [resHead 0o63 0 0 0] t ∧
        (ctxState u k = 1 → ctxState t k = 1) ∧ (ctxState u k = 2 → ctxStaged u k = false → ctxState t k = 1) ∧
        (3 ≤ ctxState u k → ctxDis t k = true ∨ ctxState t k = 1)) ∧
      (∀ e d, planContextDisarm false src msg u = .err e d → Does (.contextDisarm src msg) s fun t =>
        Posted src [resHead 0o63 0 e d] t ∧ t.wel.journal = u.wel.journal)) ∧
    Runs 0o64 .c planContextRetire .contextRetire (fun _ msg _ _ t =>
      ctxState t (opW msg 1).toNat = 0 ∧ ∀ x ∈ bindings t, x.ctx ≠ (opW msg 1).toNat) s ∧
    Runs 0o65 .c planBind .bind (fun _ msg c u t =>
      ∃ b, b < 14336 ∧ c.res = [mkW b] ∧ bit (u.cg (rBind b)) 0 = false ∧ t.cg (rBind b) = setBit (opW msg 1) 0 true ∧
        t.cg (rBind b + 1) = opW msg 2) s ∧
    Runs 0o66 .c planUnbind .unbind (fun _ msg _ _ t =>
      t.cg (rBind (opW msg 1).toNat) = 0 ∧ t.cg (rBind (opW msg 1).toNat + 1) = 0) s

/-- R360, R487, R497, R498, R507: the commands that only read answer what they name, and leave the device as it is; HEALTH clears the
read-clears fields of the error registers that it reads.
The model's own choices and readings in it: log entry 49. -/
def Obligations.ReadingCommands : Prop :=
  ∀ s src msg, Turn src msg s →
    let u := begun src msg s
    let n := msgTen src msg
    let still := fun (t : State) => t.eng = u.eng ∧ t.mem = u.mem ∧ t.home = u.home ∧ t.wel.journal = u.wel.journal
    (manOk 1 src msg = true → firstErr (opening u src msg [] 1 false) = none →
      Does (.health src msg) s fun t => still t ∧ ∃ ws, ws.length = 16 ∧ Posted src (resHead 1 16 0 0 :: ws) t ∧ ws.getD 0 0 = u.cg rDEVID ∧
        ws.getD 1 0 = u.cg rMPSTAT ∧ ws.getD 7 0 = u.cg rTJ ∧ ∀ e, e < 144 → bit (ws.getD (2 + e / 36) 0) (e % 36) = (u.e e).run.inService ∧
          ∀ o, o ∉ healthRegs → o < mgmtBlk → t.cg o = u.cg o) ∧
    (manOk 2 src msg = true →
      let first := dbl (opW msg 1) (opW msg 2)
      let got := ((jVisible u src msg).filter fun e => decide (first ≤ e.seqno)).take (opW msg 3).toNat
      firstErr (opening u src msg [full, full, full] 1 true) = none → 1 ≤ (opW msg 3).toNat → (opW msg 3).toNat ≤ 7 →
      (asKernel u src 1 = true → opW msg 3 = 1) →
      (∀ x r, got = x :: r → (asKernel u src 1 = false → ∀ y, u.wel.journal.head? = some y → y.seqno ≤ first) →
        Does (.journalRead src msg) s fun t => still t ∧ ∃ h, fld h 0 8 = 2 ∧ fld h 18 23 = 0 ∧
          Posted src [h, hiW x.seqno, loW x.seqno, mkW got.length] t) ∧
      (got = [] → Does (.journalRead src msg) s fun t => still t ∧ ∃ hi lo, Posted src [resHead 2 2 5 0, hi, lo] t)) ∧
    (manOk 4 src msg = true → firstErr (form src msg [full] ++ [(!roleOk u src msg 4 true, 3, 0), (kernelZero u src 4 msg, 4, 0)]) = none →
      1 ≤ (opW msg 1).toNat → (opW msg 1).toNat ≤ 20 →
      Does (.noticeRead src msg) s fun t => still t ∧ noticesOf t n = (noticesOf u n).drop (opW msg 1).toNat ∧
        let got := (noticesOf u n).take (opW msg 1).toNat
        Posted src (resHead 4 (1 + 3 * got.length) 0 0 :: mkW got.length :: got.flatMap noticeWords) t) ∧
    (manOk 5 src msg = true → firstErr (opening u src msg [maskW 0 2, full] 1 true) = none →
      let k := (opW msg 2).toNat
      (fld (opW msg 1) 0 2 = 0 → k < 4096 → tenState u k ≠ 0 → k = n ∨ isConf u src = true →
        Does (.recordRead src msg) s fun t => still t ∧ Posted src (resHead 5 8 0 0 :: u.cgs (rTen k 0) 8) t) ∧
      (fld (opW msg 1) 0 2 = 1 → k < 16384 → ctxState u k ≠ 0 → ctxTenant u k = n ∨ isConf u src = true →
        Does (.recordRead src msg) s fun t => still t ∧ Posted src (resHead 5 32 0 0 :: u.cgs (rCtx k 0) 32) t) ∧
      (fld (opW msg 1) 0 2 = 3 → k < 14336 → bit (u.cg (rBind k)) 0 = true →
        ctxTenant u (fld (u.cg (rBind k + 1)) 0 13) = n ∨ isConf u src = true →
        Does (.recordRead src msg) s fun t => still t ∧ Posted src (resHead 5 2 0 0 :: u.cgs (rBind k) 2) t)) ∧
    (manOk 3 src msg = true → msgNW msg + 1 = msg.length → fld (msg.headD 0) 30 35 = 0 → 2 ≤ msg.length →
      roleOk u src msg 1 true = true → kernelZero u src 1 msg = false → tenBusy u n false = false →
      (queryPlan src (msg.drop 1) u = none → Does (.admissionQuery src msg) s fun t => still t ∧ Posted src [resHead 3 0 7 1] t) ∧
      (∀ e d, queryPlan src (msg.drop 1) u = some (.err e d) → e ≠ 2 → e ≠ 7 →
        Does (.admissionQuery src msg) s fun t => still t ∧ Posted src [resHead 3 0 e d] t) ∧
      (∀ c, queryPlan src (msg.drop 1) u = some (.chg c) →
        Does (.admissionQuery src msg) s fun t => still t ∧ ∃ h w, Posted src [h, w] t ∧ fld h 0 8 = 3 ∧ fld h 18 23 = 0 ∧
          (bit w 0 = true ↔ admitChg c u = none)))

/-- R391 to R393, R424, R429, R437, R445, R448, R449, R501, R503: the commands on sessions, keys, ports, streams, device time and
mover channels.
The model's own choices and readings in it: log entries 18, 50, 89 and 91. -/
def Obligations.NetworkCommands : Prop :=
  ∀ s,
    Runs 0o100 .c planSessionInstall .sessionInstall (fun _ msg _ _ t =>
      let n := (opW msg 1).toNat
      n < 16384 ∧ t.cg (rSes n 0) = setBit (opW msg 2) 0 true ∧ ∀ i, 1 ≤ i → i ≤ 8 → t.cg (rSes n i) = opW msg (i + 2)) s ∧
    Runs 0o101 .c planSessionRetire .sessionRetire (fun _ msg _ _ t =>
      let n := (opW msg 1).toNat
      sesValid t n = false ∧ (keyOf t n 0).loaded = false ∧ (keyOf t n 1).loaded = false) s ∧
    RunsWith keyWord eraseKey 0o102 .c planKeyInstall .keyInstall (fun src msg _ _ t =>
      let n := fld (opW msg 1) 0 13
      let k := fld (opW msg 1) 14 14
      keyOf t n k = { KeySlot.reset with loaded := true, key := octetsOf ((msg.drop 2).take 8), salt := octetsOf [opW msg 10] } ∧
        ∀ m, src = .tenant m → ∀ j, j < 9 → t.cg (rMbx m + 2 + j) = 0) s ∧
    Runs 0o103 .q planKeySelect .keySelect (fun _ msg _ _ t => sesTkid t (fld (opW msg 1) 0 13) = fld (opW msg 1) 14 14) s ∧
    Runs 0o104 .c planPortSet .portSet (fun _ msg _ _ t =>
      ∀ j, j < (opW msg 2).toNat → 0o200 ≤ fld (opW msg 1) 2 13 + j → fld (opW msg 1) 2 13 + j ≤ 0o223 →
        t.cg (portBlk (fld (opW msg 1) 0 1) + (fld (opW msg 1) 2 13 + j)) = opW msg (3 + j)) s ∧
    Runs 0o105 .c planStreamSet .streamSet (fun _ msg _ _ t =>
      let i := fld (opW msg 1) 2 11
      (fld (opW msg 1) 0 1 = 0 → ∀ j, 1 ≤ j → j ≤ 4 → t.cg (stBlk i + j) = opW msg (2 + j)) ∧
        (fld (opW msg 1) 0 1 = 1 → fld (t.cg (rGctl true i + 1)) 6 35 = fld (opW msg 3) 6 35) ∧
        (fld (opW msg 1) 0 1 = 2 → t.cg (ethBlk + 0o72000 + 2 * i) = opW msg 2 ∧ t.cg (ethBlk + 0o72000 + 2 * i + 1) = opW msg 3)) s ∧
    Runs 0o106 .c planTimeSet .timeSet (fun _ msg _ u t =>
      t.net.prio1 = fld (opW msg 1) 0 7 ∧ t.net.prio2 = fld (opW msg 1) 8 15 ∧
        t.net.devTime = if bit (opW msg 1) 22 then ofTime (opW msg 2) (opW msg 3) else u.net.devTime) s ∧
    Runs 0o120 .c planChannelBind .channelBind (fun _ msg c u t =>
      let m := fld (opW msg 1) 0 3
      ∃ n, m < 12 ∧ n < 16 ∧ c.res = [place 0 3 m ||| place 4 8 n] ∧ (fld (opW msg 1) 4 8 ≠ 16 → n = fld (opW msg 1) 4 8) ∧
        (armed u m n false = false → armed u m n true = false →
          fld (t.cg (rMVBIND m n)) 0 33 = fld (setBit (opW msg 2) 12 true) 0 33)) s ∧
    Runs 0o121 .c planChannelUnbind .channelUnbind (fun _ msg _ u t =>
      let m := fld (opW msg 1) 0 3
      let n := fld (opW msg 1) 4 8
      armed t m n true = false ∧
        ((u.mover m).cur.map Transfer.ch ≠ some n → t.cg (rMVBIND m n) = 0 ∧ armed t m n false = false) ∧
        ((u.mover m).cur.map Transfer.ch = some n → ∃ y, (t.mover m).cur = some y ∧ y.ch = n ∧ y.unbind = true ∧
          (armed u m n false = true → y.aborting = true))) s

/-- R266 to R268, R502, R530 to R534: images are staged, activated and abandoned; each kind takes effect at its own event.
The model's own choices and readings in it: log entries 3, 36, 38, 39, 50 and 82. -/
def Obligations.FirmwareReplacement : Prop :=
  ∀ s,
    Runs 0o140 .l planFirmwareStage .firmwareStage (fun src msg _ _ t =>
      (∃ x ∈ t.wel.staged, x.kind = fwKind msg ∧ x.tenant = fwTen src msg ∧ x.index = fwIndex msg ∧ x.active = false) ∧
        ∃ j ∈ t.wel.ljobs, j.code = 0o140 ∧ j.src = src) s ∧
    (∀ kind target j x, kind < 5 → target < 256 →
      (s.wel.ljobs.find? fun j => j.code = 0o140 && fld (mkW j.a) 0 2 = kind && fld (mkW j.a) 11 18 = target) = some j → srcOk j.src = true →
      (s.wel.staged.find? fun x => x.kind = kind && x.tenant = (if kind < 4 then 0 else j.b) && x.index = if kind = 4 then target else 0) = some x →
      Does (.firmwareStageComplete kind target) s fun t => j ∉ t.wel.ljobs ∧ Posted j.src [resHead 0o140 1 0 0, mkW (imgVersion x.image)] t ∧
        (kind = 1 → fld (s.cg rMPSTAT) 1 2 = 1 → fld (t.cg rMPSTAT) 1 2 = 2) ∧
        (kind = 2 → t.wel.newV = bodyMicro (imgBody x.image) 1792) ∧
        (kind = 3 → ∀ e, e < 144 → (s.e e).run.inService = true → bit (t.cg (rCSSTAT e)) 25 = true)) ∧
    Runs 0o141 .c planFirmwareActivate .firmwareActivate (fun _ msg c _ t =>
      fwKind msg < 4 → ∃ y ∈ t.wel.staged, y.kind = fwKind msg ∧ y.active = true ∧ c.res = [timeHi y.swTime, timeLo y.swTime] ∧
        (fwKind msg = 3 → t.wel.bankSwitch = some y.swTime)) s ∧
    Runs 0o142 .q planFirmwareAbandon .firmwareAbandon (fun src msg _ u t =>
      ∀ x, fwNamed u src msg = some x → x ∉ t.wel.staged ∧ (x.kind = 2 → t.wel.newV = [])) s ∧
    (∀ tm x, s.wel.bankSwitch = some tm → (s.wel.staged.find? fun x => x.kind = 3 && x.active) = some x →
      (s.wel.bankDone = false → Does .customerSwitchTime s fun t => t.wel.bankDone = true ∧ t.wel.custBank = !s.wel.custBank ∧
        t.net.devTime = max s.net.devTime tm ∧ ∀ e, e < 144 → bit (t.cg (rCSSTAT e)) 24 = !s.wel.custBank) ∧
      (s.wel.bankDone = true → liveBefore s (fun _ => true) tm = false →
        Does (.replacementComplete 3 0) s fun t => t.wel.bankSwitch = none ∧ x ∉ t.wel.staged ∧
          ∀ e, e < 144 → bit (t.cg (rCSSTAT e)) 25 = false)) ∧
    (∀ x, (s.wel.staged.find? fun x => x.kind = 2 && x.active) = some x →
      (∀ e, e < 144 → atRest s e = true → hasVendor s e x = false →
        Does (.vendorUpdateEngine e) s fun t => (t.e e).cstore.vendor = s.wel.newV ∧ fld (t.cg (rCSSTAT e)) 0 11 = imgVersion x.image ∧
          (t.e e).regs = (s.e e).regs ∧ ∀ m, m ≠ e → t.e m = s.e m) ∧
      ((∀ e, e < 144 → (s.e e).run.inService = true → hasVendor s e x = true) →
        Does (.replacementComplete 2 0) s fun t => t.wel.goldV = s.wel.newV ∧ t.wel.verVendor = imgVersion x.image ∧ x ∉ t.wel.staged)) ∧
    (∀ x, (s.wel.staged.find? fun x => x.kind = 0 && x.active) = some x →
      (∀ e, e < 144 → mayLeave s e = true → bit (s.cg (rENGGEN e)) 0 = false →
        Does (.mantleEngineSwitch e) s fun t => bit (t.cg (rENGGEN e)) 0 = true ∧ (t.e e).regs.pc = 0 ∧ (t.e e).regs.w = [] ∧
          (t.e e).mem.l1i = [] ∧ (t.e e).mem.near = (s.e e).mem.near ∧ ∀ m, m ≠ e → (t.e m).regs = (s.e m).regs) ∧
      ((∀ e, e < 144 → (s.e e).run.inService = true → bit (s.cg (rENGGEN e)) 0 = true) →
        Does (.replacementComplete 0 0) s fun t => t.wel.verMantle = imgVersion x.image ∧ x ∉ t.wel.staged ∧
          ∀ e, e < 144 → t.cg (rENGGEN e) = 0 ∧ (t.e e).run.l1iInval = true)) ∧
    (∀ x i, i < 16 → bit (s.cg (rCREMAP i)) 0 = true →
      let n := fld (s.cg (rCREMAP i)) 1 12
      n ≠ 0 → (s.wel.staged.find? fun x => x.kind = 4 && x.active && x.tenant = n && x.index = fld (s.cg (rCREMAP i)) 13 20) = some x →
      x.swTime ≤ s.net.devTime → liveBefore s (fun k => ctxTenant s k = n) x.swTime = false →
      Does (.replacementComplete 4 i) s fun t => t.cg (rCREMAP i) = 0 ∧ x ∉ t.wel.staged ∧ ∀ e, e < 144 → (t.e e).run.l1iInval = true) ∧
    (∀ x, (s.wel.staged.find? fun x => x.kind = 1 && x.active) = some x → fld (s.cg rMPSTAT) 1 2 = 2 →
      Does .welanaSwitchTime s fun t => fld (t.cg rMPSTAT) 0 0 = 1 - fld (s.cg rMPSTAT) 0 0 ∧ fld (t.cg rMPSTAT) 1 2 = 2 ∧
        t.wel.verWelana = imgVersion x.image ∧ x ∉ t.wel.staged ∧ t.net.devTime = max s.net.devTime x.swTime)

/-- R386, R389, R491, R503, R511, R519, R526 to R528, R617: units leave and return, Welana runs admission again, and the commands on groups,
power and the platform.
The model's own choices and readings in it: log entries 3, 38, 51, 83 and 89. -/
def Obligations.UnitsAndPlatform : Prop :=
  ∀ s,
    (∀ src msg, manOk 0o160 src msg = true → Turn src msg s → retireJob s src msg = none →
      let u := begun src msg s
      let k := unitKind msg
      let n := unitNum msg
      firstErr (retireChecks src msg u) = none →
      ((k < 2 → admission (without (unitEngs u k n) u) [] [] = none) → u.wel.deltaFails = true → Does (.unitRetire src msg) s fun t =>
        Answered src [resHead 0o160 0 0o17 0] u t) ∧
      (2 ≤ k → u.wel.deltaFails = false → Does (.unitRetire src msg) s fun t => Posted src [resHead 0o160 0 0 0] t ∧
        fld (t.cg rFLTREC) 0 2 = k ∧ fld (t.cg rFLTREC) 3 10 = n ∧ fld (t.cg rFLTREC) 11 16 = 0o16 ∧
        (k = 2 → n ∈ t.mem.retired) ∧ (k = 4 → tget false t.wel.mpUp n = false) ∧ (k = 5 → refOk t n = false) ∧
        (k = 6 → (t.mover n).retired = true)) ∧
      (k < 2 → admission (without (unitEngs u k n) u) [] [] = none → u.wel.deltaFails = false →
        Does (.unitRetire src msg) s fun t => fld (t.cg rFLTREC) 11 16 = 0o16 ∧
          (∀ e ∈ unitEngs u k n, mayLeave u e = true → (t.e e).run.inService = false) ∧
          ((∀ e ∈ unitEngs u k n, mayLeave u e = true) → Posted src [resHead 0o160 0 0 0] t)) ∧
      (∀ p, k < 2 → admission (without (unitEngs u k n) u) [] [] = some p →
        Does (.unitRetire src msg) s fun t => Posted src [resHead 0o160 0 9 p] t ∧ t.eng = u.eng)) ∧
    Runs 0o161 .l planUnitRestore .unitRestore (fun src msg _ _ t =>
      (unitKind msg = 2 → unitNum msg ∈ t.mem.restoring) ∧ (unitKind msg = 4 → fld (t.cg rMPSTAT) 1 2 = 1) ∧
        ∃ j ∈ t.wel.ljobs, j.code = 0o161 ∧ j.src = src) s ∧
    (∀ k n j, k < 7 → n < unitCount k →
      (s.wel.ljobs.find? fun j => j.code = 0o161 && fld (mkW j.a) 0 3 = k && fld (mkW j.a) 4 11 = n) = some j → srcOk j.src = true →
      Does (.unitRestoreComplete k n false) s (fun t => Posted j.src [resHead 0o161 0 0o16 0] t ∧ j ∉ t.wel.ljobs ∧ t.eng = s.eng ∧
        t.movers = s.movers) ∧
      (k ≠ 3 → Does (.unitRestoreComplete k n true) s fun t => Posted j.src [resHead 0o161 0 0 0] t ∧ j ∉ t.wel.ljobs ∧
        (k = 0 → (t.e n).run.inService = true ∧ (t.e n).run.inReset = false) ∧ (k = 4 → tget false t.wel.mpUp n = true) ∧
        (k = 5 → refOk t n = true) ∧ (k = 6 → (t.mover n).retired = false))) ∧
    (∀ e, e < 144 → (s.e e).run.inService = false → (s.e e).run.retCause ≠ 0 → e / 12 ∉ s.wel.clusterDead →
      (∀ at_, (s.e e).run.autoRestored = some at_ → at_ + 24 * 3600 * 64 * 10 ^ 9 ≤ s.net.devTime) →
      Does (.engineAutoRestore e true) s (fun t => (t.e e).run.inService = true ∧ (t.e e).run.inReset = false ∧ (t.e e).regs.pc = 0 ∧
        (t.e e).run.autoRestored = some s.net.devTime) ∧
      Does (.engineAutoRestore e false) s fun t => (t.e e).run.inService = false ∧ (t.e e).run.retCause = 0 ∧ ∀ m, m ≠ e → t.e m = s.e m) ∧
    (∀ e at_, e < 144 → (s.e e).run.inService = false → (s.e e).run.retCause ≠ 0 → e / 12 ∉ s.wel.clusterDead →
      (s.e e).run.autoRestored = some at_ → s.net.devTime < at_ + 24 * 3600 * 64 * 10 ^ 9 → ∀ pass,
      Does (.engineAutoRestore e pass) s fun t => (t.e e).run.inService = false ∧ (t.e e).run.retCause = 0 ∧ ∀ m, m ≠ e → t.e m = s.e m) ∧
    (s.wel.rerunDue = true → s.wel.failed = [] → Does .admissionRerun s fun t => t.wel.rerunDue = false) ∧
    Runs 0o162 .c planGroupsSet .groupsSet (fun _ msg _ _ t => t.wel.groups = opW msg 1) s ∧
    Runs 0o163 .c planPowerPolicy .powerPolicy (fun _ msg _ _ t =>
      fld (t.cg rPWRCTL) 0 17 = fld (opW msg 1) 0 17 ∧ fld (t.cg rPWRSTAT) 2 3 = fld (opW msg 1) 2 3) s ∧
    Runs 0o170 .c planPlatformSet .platformSet (fun _ msg _ _ t =>
      fld (t.cg rRSVCFG) 0 1 = fld (opW msg 1) 0 1 ∧ t.cg rMIRBND = opW msg 2 ∧ t.cg rPRGBND = opW msg 3 ∧
        fld (t.cg rDTBASE) 0 13 = fld (opW msg 4) 0 13) s ∧
    (welUp s = true → vok s = true → recsLen (standing (storeBank s).recs) ≤ baseMax → Does .storeRebase s fun t => t.wel.bankInUse = !s.wel.bankInUse ∧ (storeBank t).seq = (storeBank s).seq + 1 ∧
      (storeBank t).deltas = [] ∧ (storeBank t).jseq = (storeBank s).lastJ ∧ (storeBank t).good (storeKey t) = true ∧ t.ctl = s.ctl ∧
      t.net.devTime = if 4 * (storeBank s).used < 3 * deltaArea then max s.net.devTime (s.wel.rebaseAt + 24 * 3600 * 64 * 10 ^ 9)
        else s.net.devTime)

/-- R508, R510 to R512: an invariant of the configuration store. The deltas of each bank rise in JSEQ: at reset, and after each operation
on the store, whatever it is given. A delta appended to the bank in use verifies with those before it, and a new base is good.
The model's own choices and readings in it: log entries 7, 83 and 88. -/
def Obligations.StoreKeepsItsOrder : Prop :=
  StoreOrder .reset ∧ ∀ s, StoreOrder s →
    (∀ n rs, n ≤ s.wel.jnext → StoreOrder (storeDeltaAt n rs s)) ∧ (∀ n rs, StoreOrder (rebase n rs s)) ∧
    (∀ c tn ws, StoreOrder (jEvent c tn ws s)) ∧ StoreOrder (chooseBank s).2 ∧ StoreOrder (firstBank s) ∧
    (∀ src msg tn hide, StoreOrder (jCommand src msg tn hide s)) ∧
    (∀ w k, StoreOrder (deviceClear w k s)) ∧ (∀ t, exec .storeRebase s = .next t → StoreOrder t) ∧
    (vok s = true → ∀ n rs, rs ≠ [] → ((storeBank s).addDelta (storeKey s) n rs).fits = true →
      (∀ d ∈ (storeBank s).deltas, d.jseq < n) → (storeBank s).jseq < n →
      let b := storeBank (storeDeltaAt n rs s)
      b.recs = (storeBank s).recs ++ rs ∧ b.lastJ = n ∧ goodDeltas (storeKey s) b.bchk b.jseq b.deltas = b.deltas)

/-- R537, R547, R549, R585, R606, R607: PAIRING, the witness's grant, and debug grants: given, revoked and expired (in Sable the
wake ends them).
The model's own choices and readings in it: log entries 2, 18, 35, 36, 38 and 47. -/
def Obligations.PairingAndGrants : Prop :=
  ∀ s,
    Runs 0o164 .c planPairing .pairing (fun _ msg _ u t =>
      t.wel.partner = fld (opW msg 1) 6 19 ∧ t.wel.witness = fld (opW msg 2) 0 13 ∧ t.wel.witnessEn = bit (opW msg 2) 14 ∧
        (∀ p, p < 4 → bit (t.cg (portBlk p)) 3 = bit (opW msg 1) (2 + p)) ∧
        (pairRoleOf u = 1 → fld (opW msg 1) 0 1 = 2 → pairRoleOf t = 1 ∧
          ∃ at_, t.wel.swAt = some at_ ∧ u.net.devTime + 10000 * 64000 ≤ at_) ∧
        (¬ (pairRoleOf u = 1 ∧ fld (opW msg 1) 0 1 = 2) → pairRoleOf t = fld (opW msg 1) 0 1)) s ∧
    Runs 0o165 .q planWitnessGrant .witnessGrant (fun src _ _ u t =>
      src = .network u.wel.witness ∧ pairRoleOf u = 2 ∧ pairRoleOf t = 1 ∧ bit (t.cg rPAIRSTAT) 6 = true ∧ t.sys.arbOut = .primary) s ∧
    Runs 0o166 .c planDebugGrant .debugGrant (fun _ msg c u t =>
      let w := octetsOf ((msg.drop 1).take 12)
      ∃ g, 1 ≤ g ∧ g ≤ 8 ∧ c.res = [mkW g] ∧ tget none u.wel.grants g = none ∧
        tget none t.wel.grants g = some ⟨u8 w 5 / 16, u16 w 6, beNat (cut w 16 8), beNat (cut w 29 5)⟩ ∧ t.wel.gseqMax = beNat (cut w 16 8) ∧
        u.wel.gseqMax < t.wel.gseqMax) s ∧
    Runs 0o167 .q planDebugRevoke .debugRevoke (fun _ msg _ u t =>
      tget none t.wel.grants (opW msg 1).toNat = none ∧ t.wel.gseqMax = u.wel.gseqMax ∧
        ∀ e, e < 144 → (u.e e).run.halted = true → (u.e e).run.haltGrant = (opW msg 1).toNat → (t.e e).run.halted = false) s ∧
    (∀ g k, s.wel.grants = [(g, some k)] → k.notAfter < 2 ^ 36 - 1 → s.sys.sable = false →
      Does .grantExpiry s fun t => t.wel.grants = [] ∧ t.net.devTime = max s.net.devTime ((k.notAfter + 1) * (64 * 10 ^ 9)) ∧
        ∀ e, e < 144 → (s.e e).run.halted = true → (s.e e).run.haltGrant = g → (t.e e).run.halted = false) ∧
    (s.sys.sable = true → Sys2Proof.Machine.exec .grantExpiry s = .next s)

namespace Sys2Proof.Claims

/-- Counter i of port p, and of the Septeg engine (R441, R475). -/
def portCtr (p i : Nat) : Nat := portBlk p + 0o300 + 2 * i
def sgCtr (i : Nat) : Nat := ethBlk + 0o700000 + 2 * i

/-- A counter has gone up by n. -/
def Up (off n : Nat) (s t : State) : Prop := t.cg2 off = (s.cg2 off + n) % 2 ^ 72

/-- The counter in which checks 1 to 5 of R414 count a frame that they refuse. -/
def refusedBy (s : State) (p : Nat) (f : RxFrame) : Option Nat :=
  let q := parseFrame f.octets
  if f.fragBad then some 2
  else if s.cb (portBlk p) 2 && f.fecBad then some 1
  else if !f.fcsOk || decide (f.octets.length < 60 ∨ 1518 < f.octets.length) then some 2
  else if !addrOk s p (f.octets.take 6) q then some 3
  else if !vlanOk s p q then some 4
  else if !etyOk s p f.octets q then some 5
  else none

/-- The port hears a line. -/
def listens (s : State) (p : Nat) : Prop :=
  p < 4 ∧ portEn s p = true ∧ portLink s p = true ∧ s.cb (portBlk p) 20 = false ∧ s.sys.heldInReset = false

end Sys2Proof.Claims

/-- R414 to R420, R428, R431, R440, R447, R450, R451, R467: the receive checks of a port and of the Septeg engine up to the waiting
transaction, and elimination reset.
The model's own choices and readings in it: log entries 2, 3, 14, 32 and 43. -/
def Obligations.FrameReception : Prop :=
  ∀ s p,
    (∀ f, listens s p →
      let q := parseFrame f.octets
      let now := max s.net.devTime f.arrival
      let sec := now / 64000000000
      let n := if (s.port p).slowSec = sec then (s.port p).slowCnt else 0
      (∀ c, refusedBy s p f = some c → Does (.frameReceived p f) s fun t => Up (portCtr p c) 1 s t ∧ t.net.devTime = now ∧
        t.net.inq = s.net.inq ∧ t.net.ports = s.net.ports) ∧
      (refusedBy s p f = none → streamOf s p f.octets q = none → isSlow f.octets q = true →
        (n < 1000 → Does (.frameReceived p f) s fun t => Up (portCtr p 0) 1 s t ∧ (t.port p).slowQ = (s.port p).slowQ ++ [f] ∧
          (t.port p).slowCnt = n + 1 ∧ t.net.inq = s.net.inq) ∧
        (1000 ≤ n → Does (.frameReceived p f) s fun t => Up (portCtr p 8) 1 s t ∧ t.net.ports = s.net.ports)) ∧
      (refusedBy s p f = none → streamOf s p f.octets q = none → isSlow f.octets q = false →
        (ipCheck s p f.octets q = none → Does (.frameReceived p f) s fun t => Up (portCtr p 9) 1 s t ∧ t.net.inq = s.net.inq) ∧
        (∀ src dst pr u, ipCheck s p f.octets q = some (src, dst, pr, u) →
          (udpCheck s (decide (q.ety = 0x86DD)) src dst pr u = none → Does (.frameReceived p f) s fun t =>
            Up (portCtr p 10) 1 s t ∧ t.net.inq = s.net.inq) ∧
          (∀ sp d, udpCheck s (decide (q.ety = 0x86DD)) src dst pr u = some (sp, d) →
            let ty := u8 d 1
            let ses := u16 d 2
            let len := u16 d 10
            let seq := beNat (cut d 4 6)
            let kid := u8 d 0 / 8 % 2
            let dir := u8 d 0 / 4 % 2
            let k := keyOf s ses kid
            let side := if sesKind s ses = 2 then 1 - sesF s ses 2 30 30 else 0
            let out := gcmOpen k.key (sgNonce k.salt dir side seq) (d.take 16) (cut d 16 len) (d.drop (16 + len))
            (d.length ≠ 32 + len ∨ 1408 < len → Does (.frameReceived p f) s fun t => Up (sgCtr 1) 1 s t ∧ t.net.inq = s.net.inq) ∧
            (d.length = 32 + len → len ≤ 1408 → u8 d 0 / 16 = 1 → u8 d 0 % 4 = 0 → ses < 16384 → u8 d 15 = 0 → tyAssigned ty = true →
              (sesAdmits s ses ty dir p (decide (q.ety = 0x86DD)) src dst sp = false → Does (.frameReceived p f) s fun t =>
                Up (sgCtr 2) 1 s t ∧ t.net.inq = s.net.inq) ∧
              (sesAdmits s ses ty dir p (decide (q.ety = 0x86DD)) src dst sp = true →
                (k.loaded = false → Does (.frameReceived p f) s fun t => Up (sgCtr 3) 1 s t ∧ fld (t.cg (rSes ses 11)) 4 7 = 4 ∧
                  t.net.inq = s.net.inq) ∧
                (k.loaded = true → replayOk k seq = false → Does (.frameReceived p f) s fun t => Up (sgCtr 4) 1 s t ∧
                  fld (t.cg (rSes ses 11)) 4 7 = 5 ∧ t.net.inq = s.net.inq) ∧
                (k.loaded = true → replayOk k seq = true → out = none → Does (.frameReceived p f) s fun t => Up (sgCtr 5) 1 s t ∧
                  fld (t.cg (rSes ses 11)) 4 7 = 6 ∧ keyOf t ses kid = k ∧ t.net.inq = s.net.inq) ∧
                (∀ pl, k.loaded = true → replayOk k seq = true → out = some pl → Does (.frameReceived p f) s fun t =>
                  Up (portCtr p 0) 1 s t ∧ Up (sgCtr 0) 1 s t ∧ sesUp t ses = true ∧ replayOk (keyOf t ses kid) seq = false ∧
                  t.net.inq = s.net.inq ++ [⟨ses, p, f.arrival, ty, seq, u16 d 12, f.octets.length + 4, f.fragmented, pl⟩]))))))) ∧
    (∀ h, h < 1024 →
      let x := tget .reset s.net.streams h
      (x.active = false → Does (.eliminationResetTimeout h) s (· = s)) ∧
      (x.active = true → Does (.eliminationResetTimeout h) s fun t => (tget .reset t.net.streams h).active = false ∧
        (tget .reset t.net.streams h).gen = x.gen ∧
        t.net.devTime = max s.net.devTime (x.last + fld (s.cg (stBlk h + 7)) 12 21 * 64000000)))

/-- R412, R416, R417, R421, R426, R427, R521: slow-path answers, the link, transmission and preemption.
The model's own choices and readings in it: log entries 2, 3, 14, 43, 79, 80 and 81. -/
def Obligations.LinkAndTransmission : Prop :=
  ∀ s p, p < 4 →
    (∀ f, (s.port p).slowQ = [f] →
      let q := parseFrame f.octets
      let b := f.octets.drop q.at_
      let pcp := if q.tagged then q.pcp else fld (s.cg (portBlk p)) 17 19
      q.ety ≠ 0x88F7 →
      (∀ pl, (q.ety = 0x0806 ∧ arpReply s p b = some pl) ∨ (q.ety = 0x0800 ∧ echo4Reply s p b = some pl) ∨
          (q.ety = 0x86DD ∧ icmp6Reply s p b = some pl) →
        portLink s p = true → (txQ s p pcp).length < 64 →
        let a := frameOf (cut f.octets 6 6) (portMac s p) pcp (vidOf s p q) none q.ety pl
        Does (.slowPathFrame p) s fun t => (t.port p).slowQ = [] ∧
          txQ t p pcp = if a.length ≤ 1518 then txQ s p pcp ++ [⟨padFrame a, pcp, 0⟩] else txQ s p pcp) ∧
      (q.ety = 0x0806 → arpReply s p b = none → Does (.slowPathFrame p) s fun t => (t.port p).slowQ = [] ∧ Up (portCtr p 8) 1 s t) ∧
      (q.ety = 0x0800 → echo4Reply s p b = none → Does (.slowPathFrame p) s fun t => (t.port p).slowQ = [] ∧ Up (portCtr p 8) 1 s t) ∧
      (q.ety = 0x86DD → icmp6Reply s p b = none → Does (.slowPathFrame p) s fun t =>
        (t.port p).slowQ = [] ∧ Up (portCtr p 8) 1 s t)) ∧
    (portEn s p = true → portLink s p = false → s.sys.heldInReset = false → Does (.linkUp p) s fun t => portLink t p = true ∧
      bit (t.cg (rPSTAT p)) 1 = bit (s.cg (portBlk p)) 2 ∧ t.net.devTime = s.net.devTime + 64000000) ∧
    (portEn s p = true → portLink s p = true → Does (.linkDown p) s fun t => portLink t p = false ∧
      bit (t.cg (rPSTAT p)) 2 = false ∧ (bit (s.cg (rPSTAT p)) 1 = false → bit (t.cg (rPSTAT p)) 1 = false) ∧
      bit (t.cg (rPSTAT p)) 3 = true ∧ (t.port p).txq = [] ∧ (t.port p).onLine = none ∧
      Up (portCtr p 13) (((s.port p).txq.map fun x => x.2.length).sum + (s.port p).onLine.toList.length +
        (s.port p).preempted.toList.length) s t ∧
      fld (t.cg rFLTREC) 0 2 = 3 ∧ fld (t.cg rFLTREC) 3 10 = p ∧ fld (t.cg rFLTREC) 11 16 = 0o12) ∧
    (mayTransmit s p = true →
      ((s.port p).onLine = none → bestClass s p = none → Does (.frameTransmit p) s (· = s)) ∧
      (∀ k, (s.port p).onLine = none → (s.port p).preempted = none → bestClass s p = some k →
        Does (.frameTransmit p) s fun t => ∃ f fs, txQ s p k = f :: fs ∧ txQ t p k = fs ∧ (t.port p).onLine = some f ∧
          (∀ j, j < 8 → k < j → startable s p j = false) ∧
          s.net.devTime < (t.port p).lineEnd ∧ t.net.devTime = s.net.devTime) ∧
      (∀ f, (s.port p).onLine = some f → mustPreempt s p f = true → Does (.frameTransmit p) s fun t =>
        let f' := { f with frags := f.frags + 1 }
        ((t.port p).preempted = some f' ∨ (t.port p).onLine = some f') ∧
        t.net.devTime = preemptPoint s p + lineTime s p 16 ∧ s.net.devTime ≤ t.net.devTime ∧ t.ctl = s.ctl ∧
        ((s.port p).preempted = none →
          (∃ k, k < 8 ∧ preemptable s p k = false ∧ startable (bringTo (preemptPoint s p + lineTime s p 16) s) p k = true) →
          (t.port p).preempted = some f' ∧ (t.port p).preLeft + preemptPoint s p = (s.port p).lineEnd + lineTime s p 8 ∧
            ∃ k g gs, preemptable s p k = false ∧ txQ s p k = g :: gs ∧ (t.port p).onLine = some g)) ∧
      (∀ f, (s.port p).onLine = some f → mustPreempt s p f = false → s.cb (portBlk p) 20 = false → Does (.frameTransmit p) s fun t =>
        Up (portCtr p 11) 1 s t ∧ (f.frags ≠ 0 → Up (portCtr p 12) 1 s t) ∧ t.net.devTime = max s.net.devTime (s.port p).lineEnd)) ∧
    (portLink s p = true → s.cb (portBlk p) 4 = true → s.cb (rPSTAT p) 2 = false → (s.port p).vfy < 3 →
      Does (.preemptionVerify p true) s (fun t => bit (t.cg (rPSTAT p)) 2 = true ∧ t.net = s.net) ∧
      Does (.preemptionVerify p false) s fun t => (t.port p).vfy = (s.port p).vfy + 1 ∧ t.ctl = s.ctl ∧
        t.net.devTime = s.net.devTime + 640000000)

/-- R438 to R440: gPTP: the port's peer delay, Announce, Sync and the servo, an unusable master, the stamp of a Sync in its Follow_Up,
peer delay exchanges, and the device as the grandmaster.
The model's own choices and readings in it: log entries 2, 3 and 33. -/
def Obligations.PrecisionTime : Prop :=
  ∀ s,
    (∀ p, p < 4 →
      (∀ d, portEn s p = true → portLink s p = true → Does (.peerDelayMeasurement p d) s fun t => (t.port p).delay = d ∧ t.ctl = s.ctl ∧
        (t.port p).pdSeq = ((s.port p).pdSeq + 1) % 65536 ∧ ((txQ s p 7).length < 64 → (txQ t p 7).length = (txQ s p 7).length + 1)) ∧
      (∀ f, mayTransmit s p = true → (s.port p).onLine = some f → mustPreempt s p f = false → s.cb (portBlk p) 20 = false →
        u16 f.octets 12 = 0x88F7 → u8 f.octets 14 % 16 = 0 → bit (mkW (u8 f.octets 20)) 34 = true → (txQ s p 7).length < 64 →
        Does (.frameTransmit p) s fun t => ∃ g ∈ txQ t p 7 ++ (t.port p).onLine.toList,
          g.octets = padFrame (gptpFrame s p 8 0 0 (u16 f.octets 44) (u8 f.octets 47) (ptpTime (s.port p).sfd))) ∧
      (∀ f, (s.port p).slowQ = [f] → (parseFrame f.octets).ety = 0x88F7 →
        let m := f.octets.drop (parseFrame f.octets).at_
        34 ≤ m.length → u8 m 4 = 0 →
        (∀ v, u8 m 0 % 16 = 11 → 64 ≤ m.length → s.net.gm = none → annVector m = v → vecClock v ∉ s.net.gmBad → octLt v (ownVector s) = true →
          Does (.gptpFrameReceived p) s fun t => t.net.gm = some (p, v) ∧ fld (t.cg rDTSTAT) 3 6 = 2 ^ (3 - p) ∧ (t.port p).slowQ = []) ∧
        (u8 m 0 % 16 = 2 → portLink s p = true → (txQ s p 7).length < 63 →
          Does (.gptpFrameReceived p) s fun t => (txQ t p 7).length = (txQ s p 7).length + 1 ∧ (t.port p).slowQ = [] ∧ t.ctl = s.ctl) ∧
        (∀ seq t1, (s.port p).pdSent = some (seq, t1) → pdelayMine s p m = true →
          (∀ t2, u8 m 0 % 16 = 3 → u8 m 6 / 2 % 2 = 0 → ptpRead (m.drop 34) = some t2 → Does (.gptpFrameReceived p) s fun t =>
            (t.port p).delay = linkDelay t1 t2 t2 f.arrival (corrOf m) ∧ t.ctl = s.ctl) ∧
          (∀ t2 t3 t4 c, (s.port p).pdResp = some (seq, t2, c, t4) → u16 m 30 = seq → u8 m 0 % 16 = 10 → ptpRead (m.drop 34) = some t3 →
            Does (.gptpFrameReceived p) s fun t => (t.port p).delay = linkDelay t1 t2 t3 t4 (c + corrOf m) ∧ t.ctl = s.ctl)) ∧
        (∀ v, s.net.gm = some (p, v) → u8 m 0 % 16 = 0 → u8 m 6 / 2 % 2 = 0 → ptpRead (m.drop 34) = none →
          Does (.gptpFrameReceived p) s fun t => t.net.gm = none ∧ vecClock v ∈ t.net.gmBad) ∧
        (∀ v tm, s.net.gm = some (p, v) → u8 m 0 % 16 = 0 → u8 m 6 / 2 % 2 = 0 → ptpRead (m.drop 34) = some tm →
          let off : Int := (f.arrival : Int) - ((tm : Int) + corrOf m + ((s.port p).delay : Int))
          (off.natAbs ≤ 6400 → 7 ≤ s.net.goodSync → Does (.gptpFrameReceived p) s fun t => fld (t.cg rDTSTAT) 0 2 = 1 ∧
            t.net.devTime = s.net.devTime ∧ t.net.goodSync = s.net.goodSync + 1) ∧
          (64000000 < off.natAbs → s.cb rRUCTL 0 = true → Does (.gptpFrameReceived p) s fun t => fld (t.cg rDTSTAT) 0 2 = 4 ∧
            t.net.devTime = s.net.devTime ∧ t.net.goodSync = 0) ∧
          (64000 < off.natAbs → s.cb rRUCTL 0 = false → Does (.gptpFrameReceived p) s fun t =>
            t.net.devTime = ((s.net.devTime : Int) - off).toNat ∧ t.net.goodSync = 0)))) ∧
    (s.net.gm = none → s.net.prio1 < 255 → Does .gptpSyncSend s fun t => fld (t.cg rDTSTAT) 0 2 = 3 ∧ t.cg rDTRATE = 0 ∧
      t.net.syncSeq = (s.net.syncSeq + 1) % 65536) ∧
    (s.net.gm.isSome = true ∨ 255 ≤ s.net.prio1 → Does .gptpSyncSend s (· = s)) ∧
    (s.net.gm.isSome = true → Does .gptpMasterLost s fun t => t.net.gm = none ∧ fld (t.cg rDTSTAT) 0 2 = 2 ∧
      t.net.devTime = max s.net.devTime (s.net.gmAt + 3 * syncInterval s)) ∧
    (s.net.gm = none → fld (s.cg rDTSTAT) 0 2 = 1 ∨ fld (s.cg rDTSTAT) 0 2 = 4 → Does .gptpMasterLost s fun t => t.net.gm = none ∧
      fld (t.cg rDTSTAT) 0 2 = 2) ∧
    (s.net.gm = none → fld (s.cg rDTSTAT) 0 2 ≠ 1 → fld (s.cg rDTSTAT) 0 2 ≠ 4 → Does .gptpMasterLost s (· = s))

namespace Sys2Proof.Claims

/-- The oldest transaction of a type that waits. -/
def waits (s : State) (ty : Nat) : Option SgIn := s.net.inq.find? fun x => x.ty = ty

/-- The state once a transaction has been taken up. -/
def without1 (x : SgIn) (s : State) : State := s.modNet fun n => { n with inq := n.inq.erase x }

/-- The status with which checks 2 to 5 of R466 refuse a READ or WRITE, with the limits of 64 and 4 first. -/
def early (s : State) (w : Bool) (x : SgIn) : Option Nat :=
  let n := u16 x.payload 6
  let role := sesRole s x.ses
  if 64 ≤ s.net.jobs.length ∨ 4 ≤ (s.net.jobs.filter fun j => j.ses = x.ses).length then some 1
  else if n = 0 ∨ (if w then 311 else 312) < n ∨ u8 x.payload 1 ≠ 0 ∨ x.payload.length ≠ 8 + (if w then (9 * n + 1) / 2 else 0) then some 2
  else if role = 0 ∨ w = true ∧ role = 1 ∨ w = true ∧ isStandby s = true then some 3
  else none

/-- The transaction is taken up, and the descriptor that a READ or WRITE names has been read. -/
def looked (x : SgIn) (s : State) : State := descTouch .septeg (sesTenant s x.ses) (u8 x.payload 0) (without1 x s)

/-- The checks of the descriptor: a status, or the first physical word. -/
def descChecked (x : SgIn) (w : Bool) (s : State) : Sum Nat Nat :=
  sgAccess (looked x s) x.ses w (u8 x.payload 0) (beNat (cut x.payload 2 4)) (u16 x.payload 6)

/-- Takes up a READ or WRITE: a refused one is answered, an accepted one asks for its first line. -/
def AccessIn (w : Bool) (ty : Nat) (i : Instr) (s : State) : Prop :=
  ∀ x, waits s ty = some x →
    let u := without1 x s
    let v := looked x s
    (∀ st, early u w x = some st → Does i s fun t => t = sgRespond x.ses ty x.txid st [] (if st = 1 then sgCount 14 u else u)) ∧
    (∀ st, early u w x = none → descChecked x w s = .inl st → Does i s fun t => t = sgRespond x.ses ty x.txid st [] v) ∧
    (∀ a l ls, early u w x = none → v.net.jobs = [] → descChecked x w s = .inr a → linesOf a (u16 x.payload 6) = l :: ls →
      reqOut v .septeg l = false →
      Does i s fun t => t.net.inq = v.net.inq ∧ reqOut t .septeg l = true ∧ t.home.net.length = v.home.net.length + 1 ∧
        ∃ j, t.net.jobs = [j] ∧ j.ses = x.ses ∧ j.txid = x.txid ∧ j.write = w ∧ j.first = a ∧ j.count = u16 x.payload 6 ∧
          j.await = some l ∧ j.todo = ls)

end Sys2Proof.Claims

/-- R453, R454, R457, R458, R460, R462 to R469, R472, R473, R475: the transactions that wait at the Septeg engine, mailbox responses, output publishing,
and an unanswered write.
The model's own choices and readings in it: log entries 2, 3, 14, 29 and 75. -/
def Obligations.SeptegTransactions : Prop :=
  ∀ s,
    (waits s 1 = none → Does .septegPublish s (· = s)) ∧ (waits s 2 = none → Does .septegRead s (· = s)) ∧
    (waits s 3 = none → Does .septegWrite s (· = s)) ∧ (waits s 4 = none → Does .septegMailbox s (· = s)) ∧
    (waits s 5 = none → Does .septegHeartbeat s (· = s)) ∧ (waits s 6 = none → Does .septegTime s (· = s)) ∧
    (∀ x, waits s 1 = some x →
      let pl := x.payload
      let hi := (unpackWords 2 (pl.take 9)).getD 0 0
      let lo := (unpackWords 2 (pl.take 9)).getD 1 0
      (pl.length < 10 ∨ u8 pl 9 = 0 ∨ parseBlocks (u8 pl 9) (pl.drop 10) = none → Does .septegPublish s fun t => Up (sgCtr 1) 1 s t ∧
        t.net.inq = s.net.inq.erase x ∧ t.home = s.home ∧ t.mem = s.mem) ∧
      (∀ y, 10 ≤ pl.length → u8 pl 9 = 1 → parseBlocks 1 (pl.drop 10) = some [y] →
        let bs := (bindings s).filter fun b => !b.tx && b.ses = x.ses && b.block = y.block
        (bs = [] → Does .septegPublish s fun t => Up (sgCtr 10) 1 s t ∧ t.home = s.home ∧ t.mem = s.mem) ∧
        (∀ b, bs = [b] → (publishLimit s x.port < x.frameLen ∨ x.fragmented = true) → Does .septegPublish s fun t =>
          Up (sgCtr 6) 1 s t ∧ t.home = s.home ∧ t.mem = s.mem) ∧
        (∀ b a h, bs = [b] → x.frameLen ≤ publishLimit s x.port → x.fragmented = false →
          (y.nodata = false → b.len ≠ y.ws.length → Does .septegPublish s fun t => Up (sgCtr 7) 1 s t ∧ t.home = s.home ∧ t.mem = s.mem) ∧
          (blockWaits (without1 x s) b hi lo x.arrival y = true → Does .septegPublish s fun t => t.net.inq = s.net.inq.erase x ∧
            t.net.held = s.net.held ++ [⟨b.b, x.ses, hi, lo, x.arrival, y⟩] ∧ t.home = s.home ∧ t.mem = s.mem) ∧
          (y.nodata = false → b.len = y.ws.length → ctxState s b.ctx ≠ 0 → perOk s b.ctx = true →
            blockWaits (without1 x s) b hi lo x.arrival y = false →
            let u := descTouch .septeg (ctxTenant s b.ctx) (fld (s.cg (rCtx b.ctx 10)) 0 7) (without1 x s)
            let m := windowOf u b.ctx (ofTime hi lo)
            let fin := tickOf u b.ctx (m + 1)
            let slot := 8 * frLen u b.ctx * (m % 3).toNat + b.off
            inArea u b.ctx = some a → a.has u slot (b.len + 3) = true →
            let p := a.base + slot
            (fin * 1600000 ≤ (x.arrival : Int) ∨ fin < (u.rel.tick : Int) → Does .septegPublish s fun t => Up (sgCtr 8) 1 u t ∧
              t.home = u.home ∧ t.mem = u.mem) ∧
            ((x.arrival : Int) < fin * 1600000 → (u.rel.tick : Int) ≤ fin →
              (windowOf u b.ctx x.arrival + 1 < m → Does .septegPublish s fun t => Up (sgCtr 9) 1 u t ∧ t.home = u.home ∧ t.mem = u.mem) ∧
              (m ≤ windowOf u b.ctx x.arrival + 1 → p % 8 + b.len + 3 ≤ 8 → u.hl (p / 8) = some h → h.st = .i → h.poison = false →
                h.ws.length = 8 → h.chk = rsCheck h.ws → (∀ q ∈ u.eng, q.2.l1Any (p / 8) = none) → comingHome u (p / 8) = none →
                lineHeld u (p / 8) = false → granting u (p / 8) = false → lockedWin u (8 * (p / 8)) = false →
                (∀ q ∈ u.home.tents, q.line ≠ p / 8) → (∀ w ∈ u.home.watches, w.line ≠ p / 8) →
                (∀ w ∈ u.home.cwatches, w.line ≠ p / 8) → bit (h.ws.getD (p % 8) 0) 0 = true →
                Does .septegPublish s fun t => Up (sgCtr 13) y.ws.length u t ∧
                  peek t p = place 2 9 (min 255 (fld (h.ws.getD (p % 8) 0) 2 9 + 1)) ∧ peek t (p + 1) = hi ∧ peek t (p + 2) = lo ∧
                  ∀ j, j < b.len → peek t (p + 3 + j) = y.ws.getD j 0)))))) ∧
    AccessIn false 2 .septegRead s ∧ AccessIn true 3 .septegWrite s ∧
    (∀ x, waits s 4 = some x →
      let u := without1 x s
      let m := tget .reset s.net.mbx x.ses
      let n := 2 * x.payload.length / 9
      (∀ b, m.busy = some b → b = x.txid → Does .septegMailbox s (· = u)) ∧
      (∀ b, m.busy = some b → b ≠ x.txid → Does .septegMailbox s fun t => t = sgRespond x.ses 4 x.txid 9 [] (sgCount 14 u)) ∧
      (∀ ws, m.busy = none → m.kept = some (x.txid, ws) → Does .septegMailbox s fun t => t = sgRespond x.ses 4 x.txid 0 (packWords ws) u) ∧
      (m.busy = none → (∀ ws, m.kept ≠ some (x.txid, ws)) → ∀ k r, (k, r) ∈ s.net.mbx → k ≠ x.ses → r.busy.isSome = true →
        sesMbx s k = sesMbx s x.ses → Does .septegMailbox s fun t => t = sgRespond x.ses 4 x.txid 9 [] (sgCount 14 u)) ∧
      (m.busy = none → (∀ ws, m.kept ≠ some (x.txid, ws)) →
        (∀ k r, (k, r) ∈ s.net.mbx → k = x.ses ∨ r.busy = none ∨ sesMbx s k ≠ sesMbx s x.ses) →
        (n = 0 ∨ 312 < n ∨ x.payload.length ≠ (9 * n + 1) / 2 →
          Does .septegMailbox s fun t => t = sgRespond x.ses 4 x.txid 2 [] u) ∧
        (1 ≤ n → n ≤ 312 → x.payload.length = (9 * n + 1) / 2 →
          let msg := unpackWords n x.payload
          (welIdle s = false ∨ cmdAssigned (msgCmd msg) = true ∧ (∀ c ∈ s.wel.queue, cmdAssigned (msgCmd c.msg) = true) →
            Does .septegMailbox s fun t => t.wel.queue = s.wel.queue ++ [⟨.network x.ses, msg⟩] ∧
            (tget .reset t.net.mbx x.ses).busy = some x.txid ∧ (tget .reset t.net.mbx x.ses).kept = m.kept) ∧
          (welIdle s = true → s.wel.queue = [] → cmdAssigned (msgCmd msg) = false → Does .septegMailbox s fun t => t.wel.queue = [] ∧
            (tget .reset t.net.mbx x.ses).busy = some x.txid ∧
            (tget .reset t.net.mbx x.ses).ready = some [resHead (msgCmd msg) 0 1 0])))) ∧
    (∀ ses, ses < 16384 →
      let m := tget .reset s.net.mbx ses
      (∀ ws b, m.ready = some ws → m.busy = some b → Does (.mailboxResponse ses) s fun t => tget .reset t.net.mbx ses = ⟨none, some (b, ws), none⟩ ∧
        t = sgRespond ses 4 b 0 (packWords ws) (s.modNet fun y => { y with mbx := tset .reset y.mbx ses ⟨none, some (b, ws), none⟩ })) ∧
      (m.ready = none ∨ m.busy = none → Does (.mailboxResponse ses) s (· = s))) ∧
    (∀ x, waits s 6 = some x →
      (x.payload ≠ [] → Does .septegTime s fun t => t = sgRespond x.ses 6 x.txid 2 [] (without1 x s)) ∧
      (x.payload = [] → vok s = true → sesValid s x.ses = true → sesKind s x.ses = 1 → keyDead (keyOf s x.ses (sesTkid s x.ses)) = false →
        s.cb (rSes x.ses 1) 22 = false →
        let kid := sesTkid s x.ses
        let k := keyOf s x.ses kid
        let p := sesF s x.ses 1 23 24
        let cls := sesF s x.ses 0 26 28
        portLink s p = true → (txQ s p cls).length < 64 →
        let now := s.net.devTime
        let h := sgHeader kid 1 0o206 x.ses (k.txc + 1) 23 x.txid 0
        let body := packWords [timeHi x.arrival, timeLo x.arrival] ++ packWords [timeHi now, timeLo now] ++ packWords [s.cg rDTSTAT]
        let c := gcmSeal k.key (sgNonce k.salt 1 0 (k.txc + 1)) h body
        Does .septegTime s fun t => keyOf t x.ses kid = { k with txc := k.txc + 1 } ∧ t.net.devTime = s.net.devTime ∧
          txQ t p cls = txQ s p cls ++ [⟨padFrame (sesFrame s x.ses p none (h ++ c.1 ++ c.2)), cls, 0⟩])) ∧
    (∀ x, waits s 5 = some x →
      (x.payload.length ≠ 10 → Does .septegHeartbeat s fun t => Up (sgCtr 1) 1 s t ∧ t.wel = s.wel) ∧
      (x.payload.length = 10 → sesKind s x.ses ≠ 2 ∨ x.ses ≠ s.wel.partner → Does .septegHeartbeat s fun t => t = without1 x s) ∧
      (x.payload.length = 10 → sesKind s x.ses = 2 → x.ses = s.wel.partner →
        Does .septegHeartbeat s fun t => t.wel.partnerRole = u8 x.payload 9 / 64)) ∧
    (∀ k, k < 16384 →
      ((∀ n ∈ s.net.notices, n.ctx ≠ k) → Does (.outputPublish k) s (· = s)) ∧
      (∀ n, (s.net.notices.find? fun n => n.ctx = k) = some n →
        let u := s.modNet fun y => { y with notices := y.notices.erase n }
        let v := if n.dropped then u else descTouch .septeg n.tenant n.outIdx u
        (isStandby s = true ∨ (∀ b ∈ bindings s, ¬ (b.tx = true ∧ b.ctx = k)) → Does (.outputPublish k) s (· = u)) ∧
        (∀ b, isStandby s = false → ((bindings s).filter fun b => b.tx && b.ctx = k) = [b] → sesKind s b.ses ≠ 3 →
          let w := rdoLines .septeg (blockLines v n b).eraseDups v
          (∀ ws, readBlock w n b = some ws → Does (.outputPublish k) s fun t => Up (sgCtr 13) ws.length w t ∧
            t.net.notices = u.net.notices) ∧
          (n.dropped = false → readBlock w n b = none → Does (.outputPublish k) s fun t => Up (sgCtr 15) 1 w t ∧
            t.net.notices = u.net.notices)))) ∧
    ((∀ j ∈ s.net.jobs, j.write = true → j.await = none) → Does .septegWriteUnanswered s (· = s)) ∧
    (∀ j, s.net.jobs = [j] → j.write = true → j.await ≠ none → Does .septegWriteUnanswered s fun t => t.net.jobs = [] ∧
      t.net.devTime = max s.net.devTime (j.since + 4096000) ∧ t.mem = s.mem ∧ t.home = s.home)

/-- A step takes the command at the front of the queue and runs it with the queue's rest. With an empty queue a step is one cycle of
the root clock (R435; the model's choice: log entry 1): device time and its fraction advance by 6.4 ns × (1 + DTRATE × 2^-40), and
nothing else changes. -/
def Obligations.StepRunsTheFront : Prop :=
  (∀ c s, step { s with pending := c :: s.pending } = exec c s) ∧
    ∀ s, s.pending = [] → ∃ t, step s = .next t ∧ { t with net := s.net } = s ∧
      { t.net with devTime := s.net.devTime, frac := s.net.frac } = s.net ∧
      (-219902325 ≤ (s.cg rDTRATE).toInt →
        ((t.net.devTime * (5 * 2 ^ 40) + t.net.frac : Nat) : Int) =
          s.net.devTime * (5 * 2 ^ 40) + s.net.frac + 2048 * (2 ^ 40 + (s.cg rDTRATE).toInt))

/-- Every command completes: a well-formed one answers a next state in every state, and one whose operands name nothing that the
device has is refused by the fault noSuchUnit, which is the model's own (log entry 9). -/
def Obligations.CommandsComplete : Prop :=
  ∀ i s, (wellFormed i = true → ∃ t, exec i s = .next t) ∧ (wellFormed i = false → exec i s = .fault .noSuchUnit)

/-- The reset state: the values that the field tables give (R62), no command waiting, and every table in its canonical form. -/
def Obligations.ResetIsWellFormed : Prop :=
  queueOk .reset = true ∧ ctlWf .reset = true ∧ Mem.wf State.reset.mem = true ∧ engWf .reset = true ∧
    State.reset.cg rDEVID = 0o154270340201 ∧ State.reset.cf rPWRCTL 0 1 = 1 ∧ State.reset.cf rPWRCTL 4 17 = 0o30 ∧ State.reset.cf (ethBlk + 0o40000) 0 15 = 0o145030 ∧
    (∀ p, p < 4 → State.reset.cg (portBlk p) = 0 ∧ State.reset.cf (portBlk p + 0o14) 0 7 = 0o377) ∧
    ∀ e, e < 144 → State.reset.cf (rPCTL e) 2 4 = 7

/-- An invariant of every run: while only well-formed commands wait, a step never stops; it takes the front command and leaves the
others, in their order. -/
def Obligations.WellFormedQueuesRun : Prop :=
  ∀ s, queueOk s = true → ∃ t, step s = .next t ∧ t.pending = s.pending.tail ∧ queueOk t = true

/-- R126 to R132, R164: the encoding loses no bit. The parcels of a well-formed instruction spell it, with every operand at every value
that its field admits; and what any two parcels spell is well formed, and encodes to those parcels or is an unassigned opcode. -/
def Obligations.ParcelsRoundTrip : Prop :=
  (∀ i p qs, wellFormed i = true → encodeParcels i = p :: qs →
    decodeParcels (engineOf i) (nextOf i) p (qs.headD 0) = i ∧ (Parcel.long p = true → qs ≠ []) ∧ (Parcel.long p = false → qs = [])) ∧
    ∀ e nxt p q, e < 144 → p < 2 ^ 18 → q < 2 ^ 18 →
      wellFormed (decodeParcels e nxt p q) = true ∧
      (encodeParcels (decodeParcels e nxt p q) = (if Parcel.long p then [p, q] else [p]) ∨
        decodeParcels e nxt p q = .unassignedOpcode e (Parcel.long p))

namespace Sys2Proof.Claims

/-- R160, R161, R189: the branches, in both modes. -/
def BranchesComplete : Prop :=
  ∀ e a b cond disp s, a < 16 → b < 16 → cond < 16 → disp < 262144 →
    let g := s.e e
    let goes := fun (n target : Nat) (t : State) => OnlyEngine e s t ∧ (t.e e).pipe.exc = none ∧
      (t.e e).regs.pc = (if g.eff.open_ then g.regs.pc + n else target) % 2 ^ 37
    (readyBranch s e 2 = true →
      Does (.b e cond 0 disp) s (goes 2 (if condTrue cond g.regs.st then dispTarget g.regs disp else g.regs.pc + 2)) ∧
      Does (.call e a 0 disp) s (goes 2 (dispTarget g.regs disp)) ∧
      Does (.dbnz e a 0 disp) s fun t => goes 2 (if g.w a = 1 then g.regs.pc + 2 else dispTarget g.regs disp) t ∧ (t.e e).w a = g.w a - 1) ∧
    (readyBranch s e 1 = true → Does (.jr e a 0) s (goes 1 (g.w a).toNat) ∧ Does (.callr e a b) s (goes 1 (g.w b).toNat))

/-- A management command that its checks accept completes with this effect (R491). -/
def Completes (code : Nat) (cls : CmdClass) (plan : Bool → MbSrc → List Word → State → Plan) (i : MbSrc → List Word → Instr)
    (eff : List Word → State → Prop) (s : State) : Prop :=
  ∀ src msg c, manOk code src msg = true → Turn src msg s →
    let u := begun src msg s
    Passed cls msg (plan false src msg u) u c → deltaBad c (journaled src msg noHide u) = false → StoreOrder u → Does (i src msg) s (eff msg)

/-- R389, R503, R511, R519, R526 to R528, R617: units, groups, power policy, the platform and the store. -/
def UnitsComplete : Prop :=
  ∀ s,
    (∀ e, e < 144 → (s.e e).run.inService = false → (s.e e).run.retCause ≠ 0 → e / 12 ∉ s.wel.clusterDead →
      (∀ at_, (s.e e).run.autoRestored = some at_ → at_ + 24 * 3600 * 64 * 10 ^ 9 ≤ s.net.devTime) → ∀ pass,
      Does (.engineAutoRestore e pass) s fun t => (t.e e).run.inService = pass) ∧
    (s.wel.rerunDue = true → s.wel.failed = [] → Does .admissionRerun s fun t => t.wel.rerunDue = false) ∧
    (∀ src msg, manOk 0o160 src msg = true → Turn src msg s → retireJob s src msg = none →
      let u := begun src msg s
      let k := unitKind msg
      firstErr (retireChecks src msg u) = none → u.wel.deltaFails = false →
      (2 ≤ k → Does (.unitRetire src msg) s fun t => Posted src [resHead 0o160 0 0 0] t ∧ fld (t.cg rFLTREC) 11 16 = 0o16) ∧
      (k < 2 → admission (without (unitEngs u k (unitNum msg)) u) [] [] = none → Does (.unitRetire src msg) s fun t =>
        ∀ e ∈ unitEngs u k (unitNum msg), mayLeave u e = true → (t.e e).run.inService = false)) ∧
    Completes 0o161 .l planUnitRestore .unitRestore (fun msg t => (∃ j ∈ t.wel.ljobs, j.code = 0o161 ∧ j.a = (opW msg 1).toNat) ∧
      (unitKind msg = 2 → unitNum msg ∈ t.mem.restoring)) s ∧
    (∀ k n j, k < 7 → n < unitCount k → k ≠ 3 →
      (s.wel.ljobs.find? fun j => j.code = 0o161 && fld (mkW j.a) 0 3 = k && fld (mkW j.a) 4 11 = n) = some j →
      Does (.unitRestoreComplete k n true) s fun t => j ∉ t.wel.ljobs ∧ (k = 0 → (t.e n).run.inService = true) ∧
        (k = 6 → (t.mover n).retired = false)) ∧
    Completes 0o162 .c planGroupsSet .groupsSet (fun msg t => t.wel.groups = opW msg 1) s ∧
    Completes 0o163 .c planPowerPolicy .powerPolicy (fun msg t => fld (t.cg rPWRCTL) 0 17 = fld (opW msg 1) 0 17) s ∧
    Completes 0o170 .c planPlatformSet .platformSet (fun msg t => t.cg rMIRBND = opW msg 2 ∧ t.cg rPRGBND = opW msg 3) s ∧
    (welUp s = true → vok s = true → recsLen (standing (storeBank s).recs) ≤ baseMax → Does .storeRebase s fun t => t.wel.bankInUse = !s.wel.bankInUse ∧ (storeBank t).deltas = [])

/-- R537, R547, R549, R606, R607: pairing, the witness's grant, and debug grants. -/
def GrantsComplete : Prop :=
  ∀ s,
    Completes 0o164 .c planPairing .pairing (fun msg t => t.wel.partner = fld (opW msg 1) 6 19) s ∧
    Completes 0o165 .q planWitnessGrant .witnessGrant (fun _ t => pairRoleOf t = 1 ∧ t.sys.arbOut = .primary) s ∧
    Completes 0o166 .c planDebugGrant .debugGrant (fun msg t => t.wel.gseqMax = beNat (cut (octetsOf ((msg.drop 1).take 12)) 16 8)) s ∧
    Completes 0o167 .q planDebugRevoke .debugRevoke (fun msg t => tget none t.wel.grants (opW msg 1).toNat = none) s ∧
    (∀ g k, s.wel.grants = [(g, some k)] → k.notAfter < 2 ^ 36 - 1 → s.sys.sable = false → Does .grantExpiry s fun t => t.wel.grants = [])

/-- R391, R395 to R406, R523: the movers. -/
def MoversComplete : Prop :=
  ∀ s c n, c < 12 → n < 16 →
    (∀ ag, agOk ag = true → mOnly (agLevel s ag) ag = true ∨ chBound s c n = true → (s.mover c).retired = false →
      (armed s c n false = false → Does (.moverArm ag c n false) s fun t => armed t c n false = true ∧
        (t.mover c).queue = (s.mover c).queue ++ [n]) ∧
      (armed s c n false = true → armed s c n true = false → Does (.moverArm ag c n true) s fun t => armed t c n true = true) ∧
      Does (.shadowDisarm ag c n) s (fun t => armed t c n true = false ∧ t.answer = .ok) ∧
      (armed s c n false = true → (s.mover c).cur.map Transfer.ch ≠ some n → armed s c n true = false →
        Does (.moverAbort ag c n) s fun t => armed t c n false = false ∧ fld (t.cg (rCHSTAT c n)) 3 7 = 0o14)) ∧
    (∀ q, (s.mover c).queue = n :: q → (s.mover c).cur = none → (s.mover c).retired = false → stopAll_ s = false →
      Does (.transferStart c) s fun t => (t.mover c).queue = q ∧ (t.mover c).cur.map Transfer.ch = some n ∧
        fld (t.cg (rCHSTAT c n)) 0 1 = 2) ∧
    (∀ x, (s.mover c).cur = some x → x.ch = n → x.awaitW = [] → armed s c n true = false →
      (x.awaitR = [] → x.toRead = [] → x.toWrite = [] → x.err = 0 → x.aborting = false →
        Does (.transferEnd c) s fun t => (t.mover c).cur = none ∧ fld (t.cg (rCHSTAT c n)) 3 7 = 0) ∧
      (x.awaitR ≠ [] → Does (.moverRequestTimeout c) s fun t => (t.mover c).cur = none ∧ fld (t.cg (rCHSTAT c n)) 3 7 = 0o13)) ∧
    ((s.mover c).retired = false → Does (.moverFailure c) s fun t => (t.mover c).retired = true ∧ (t.mover c).cur = none)

/-- R423 to R425, R435, R437, R646, R651: gate lists and device time. -/
def GatesComplete : Prop :=
  ∀ s,
    (∀ st i, gateNumOk st i = true →
      (∀ g, gateRun s st i = some g → Does (.gateEntryAdvance st i) s fun t => t.ctl = s.ctl ∧
        gateRun t st i = some { g with idx := (gAt s st i g t.net.devTime).1 }) ∧
      (∀ at_, gateChg s st i = some at_ → Does (.gateChangeTime st i) s fun t => gateChg t st i = none ∧
        bit (t.cg (rGctl st i)) 2 = false) ∧
      (∀ ag w, agOk ag = true → mOnly (agLevel s ag) ag = true → bit (s.cg (rGctl st i)) 2 = false → bit w 3 = true →
        chgOk s st i (fld w 4 12) = true → Does (.gateChangeArm ag st i w) s fun t => t.answer = .ok ∧
          bit (t.cg (rGctl st i)) 2 = true ∧ (gateChg t st i).isSome = true)) ∧
    (∀ ag, agOk ag = true → mOnly (agLevel s ag) ag = true → ∀ hi lo w,
      (bit (s.cg rRUCTL) 0 = false → Does (.deviceTimeStep ag hi lo) s fun t =>
        t.net.devTime = hi.toNat * (64 * 10 ^ 9) + lo.toNat ∧ t.answer = .ok) ∧
      (w.toInt.natAbs ≤ 219902325 → Does (.deviceTimeRate ag w) s fun t => t.cg rDTRATE = w ∧ t.answer = .ok))

/-- R412, R414, R417, R421, R426, R431: frames, the link, and preemption. -/
def PortsComplete : Prop :=
  ∀ s p, p < 4 →
    (∀ f c, listens s p → refusedBy s p f = some c → Does (.frameReceived p f) s fun t => Up (portCtr p c) 1 s t) ∧
    (∀ f, listens s p → refusedBy s p f = none → streamOf s p f.octets (parseFrame f.octets) = none →
      isSlow f.octets (parseFrame f.octets) = true →
      (s.port p).slowCnt < 1000 → Does (.frameReceived p f) s fun t => (t.port p).slowQ = (s.port p).slowQ ++ [f]) ∧
    (∀ h, h < 1024 → (tget .reset s.net.streams h).active = true → Does (.eliminationResetTimeout h) s fun t =>
      (tget .reset t.net.streams h).active = false) ∧
    (∀ f, (s.port p).slowQ = [f] → (parseFrame f.octets).ety ≠ 0x88F7 → Does (.slowPathFrame p) s fun t => (t.port p).slowQ = []) ∧
    (portEn s p = true → portLink s p = false → s.sys.heldInReset = false → Does (.linkUp p) s fun t => portLink t p = true) ∧
    (portEn s p = true → portLink s p = true → Does (.linkDown p) s fun t => portLink t p = false ∧ (t.port p).txq = []) ∧
    (∀ k, mayTransmit s p = true → (s.port p).onLine = none → (s.port p).preempted = none → bestClass s p = some k →
      Does (.frameTransmit p) s fun t => ∃ f fs, txQ s p k = f :: fs ∧ txQ t p k = fs ∧ (t.port p).onLine = some f) ∧
    (portLink s p = true → s.cb (portBlk p) 4 = true → s.cb (rPSTAT p) 2 = false → (s.port p).vfy < 3 →
      Does (.preemptionVerify p true) s fun t => bit (t.cg (rPSTAT p)) 2 = true)

/-- R438, R439: gPTP. -/
def TimeComplete : Prop :=
  ∀ s,
    (∀ p d, p < 4 → portEn s p = true → portLink s p = true → Does (.peerDelayMeasurement p d) s fun t => (t.port p).delay = d) ∧
    (∀ p f, p < 4 → (s.port p).slowQ = [f] → (parseFrame f.octets).ety = 0x88F7 →
      Does (.gptpFrameReceived p) s fun t => (t.port p).slowQ = []) ∧
    (s.net.gm = none → s.net.prio1 < 255 → Does .gptpSyncSend s fun t => t.net.syncSeq = (s.net.syncSeq + 1) % 65536) ∧
    (s.net.gm.isSome = true → Does .gptpMasterLost s fun t => t.net.gm = none ∧ fld (t.cg rDTSTAT) 0 2 = 2)

/-- R453, R457, R462 to R469: the transactions of the Septeg engine. -/
def TransactionsComplete : Prop :=
  ∀ s,
    (∀ x, waits s 1 = some x → 10 ≤ x.payload.length → u8 x.payload 9 ≠ 0 →
      ∀ ys, parseBlocks (u8 x.payload 9) (x.payload.drop 10) = some ys → (∀ b ∈ bindings s, b.tx = true ∨ b.ses ≠ x.ses) →
      Does .septegPublish s fun t => t.net.inq = s.net.inq.erase x ∧ Up (sgCtr 10) ys.length s t) ∧
    (∀ w x, waits s (if w then 3 else 2) = some x → (looked x s).net.jobs = [] → early (without1 x s) w x = none →
      let i := if w then Instr.septegWrite else .septegRead
      ∀ a l ls, descChecked x w s = .inr a → linesOf a (u16 x.payload 6) = l :: ls → reqOut (looked x s) .septeg l = false →
        Does i s fun t => t.net.inq = (looked x s).net.inq ∧ reqOut t .septeg l = true) ∧
    (∀ x, waits s 4 = some x → (tget .reset s.net.mbx x.ses).busy = none → (tget .reset s.net.mbx x.ses).kept = none →
      mbxTaken s x.ses = false →
      let n := 2 * x.payload.length / 9
      1 ≤ n → n ≤ 312 → x.payload.length = (9 * n + 1) / 2 → cmdAssigned (msgCmd (unpackWords n x.payload)) = true →
      (∀ c ∈ s.wel.queue, cmdAssigned (msgCmd c.msg) = true) →
      Does .septegMailbox s fun t => t.wel.queue = s.wel.queue ++ [⟨.network x.ses, unpackWords n x.payload⟩]) ∧
    (∀ ses ws b, ses < 16384 → (tget .reset s.net.mbx ses).ready = some ws → (tget .reset s.net.mbx ses).busy = some b →
      Does (.mailboxResponse ses) s fun t => tget .reset t.net.mbx ses = ⟨none, some (b, ws), none⟩) ∧
    (∀ x, waits s 6 = some x → x.payload = [] → Does .septegTime s fun t => t.net.inq = s.net.inq.erase x ∧
      ∃ pl, t = sgRespond x.ses 6 x.txid 0 pl (without1 x s)) ∧
    (∀ x, waits s 5 = some x → x.payload.length = 10 → sesKind s x.ses = 2 → x.ses = s.wel.partner →
      Does .septegHeartbeat s fun t => t.wel.partnerRole = u8 x.payload 9 / 64) ∧
    (∀ k n, k < 16384 → (s.net.notices.find? fun n => n.ctx = k) = some n → Does (.outputPublish k) s fun t =>
      t.net.notices = s.net.notices.erase n) ∧
    (∀ j, s.net.jobs = [j] → j.write = true → j.await ≠ none → Does .septegWriteUnanswered s fun t => t.net.jobs = [])

/-- R467, R470, R471, R539 to R549: the roles of a pair. -/
def PairComplete : Prop :=
  ∀ s,
    (fld (s.cg rPAIRSTAT) 0 1 = 2 → Does (.arbInPattern .failed) s fun t => fld (t.cg rPAIRSTAT) 0 1 = 1) ∧
    (s.sys.arbIn ≠ .absent → Does .arbInAbsent s fun t => t.sys.arbIn = .absent) ∧
    (∀ at_, s.wel.swAt = some at_ → liveCtxs s = [] → s.rel.waiting = [] → Does .switchoverTime s fun t => fld (t.cg rPAIRSTAT) 0 1 = 2) ∧
    (fld (s.cg rPAIRSTAT) 0 1 = 2 → bit (s.cg rPAIRSTAT) 5 = true → Does .standbySyncLost s fun t => bit (t.cg rPAIRSTAT) 5 = false) ∧
    (fld (s.cg rPAIRSTAT) 0 1 = 1 → bit (s.cg rPAIRSTAT) 4 = true →
      Does .epochMarker s (fun t => ∃ d, s.net.devTime ≤ d ∧ t.wel.kept = s.wel.kept ++ [(s.wel.recNext, .epoch d)]) ∧
      (bit (s.cg rPAIRSTAT) 7 = true → Does .resynchronisation s fun t => bit (t.cg rPAIRSTAT) 7 = false)) ∧
    (fld (s.cg rPAIRSTAT) 0 1 = 1 → unacked s ≠ [] →
      Does .pairsyncRetransmit s fun t => t.net.devTime = max s.net.devTime (s.wel.progAt + 100 * 64000) ∧ t.wel.kept = s.wel.kept) ∧
    (∀ x a r post, s.net.inq = [x] → x.ty = 128 + ttPairsync → x.payload = beOctets 4 a → a < 2 ^ 32 → fld (s.cg rPAIRSTAT) 0 1 = 1 →
      s.wel.kept = (a, r) :: post → s.wel.recSent ≠ a → Does .pairsyncAck s fun t => t.wel.ackd = a ∧ t.wel.kept = post) ∧
    (∀ x at_, s.net.inq = [x] → x.ty = ttPairsync → fld (s.cg rPAIRSTAT) 0 1 = 2 → s.wel.inStream = false → s.wel.held = [] →
      x.payload = beOctets 4 1 ++ [1] ++ [4] ++ packWords [timeHi at_, timeLo at_] → at_ ≠ s.wel.lastEpoch → at_ < 2 ^ 36 * 64 * 10 ^ 9 →
      s.wel.partnerRole ≠ 2 → Does .pairsync s fun t => t.wel.applied = 1 ∧ t.wel.lastEpoch = at_) ∧
    (∀ n, n < 16384 → sesValid s n = true → hbInt s n ≠ 0 →
      (sesKind s n ≠ 3 → Does (.heartbeatSend n) s fun t => tget 0 t.net.hbSent n = t.net.devTime) ∧
      (sesUp s n = true → Does (.sessionDown n) s fun t => sesUp t n = false))

/-- R13, R535, R536, R565 to R570, R576 to R578, R608 to R644: power, the reference inputs, resets, device failure, the start and the
recovery loader. -/
def PowerComplete : Prop :=
  ∀ s,
    (∀ e, e < 144 → (s.e e).run.pearl = true → e / 12 ∉ s.sys.slate → s.cg (rIPEND e) ≠ 0 →
      Does (.pearlExit e) s fun t => (t.e e).run.pearl = false) ∧
    (∀ c, c < 12 → (slateOk s c = true → Does (.slateEntry c) s fun t => c ∈ t.sys.slate) ∧
      (c ∈ s.sys.slate → s.sys.sable = false → slateCause s c = true → Does (.slateExit c) s fun t => c ∉ t.sys.slate)) ∧
    (sableOk s = true → Does .sableEntry s fun t => t.sys.sable = true) ∧
    (s.sys.sable = true → s.sys.sableEmul = true → Does .sableWake s fun t => t.sys.sable = false) ∧
    (s.sys.porHeld = false → ∀ w, w.toInt < 1600 → Does (.tjUpdate w) s fun t => t.cg rTJ = w) ∧
    (∀ b i, b.toNat = i → s.sys.porHeld = false → bit (s.cg rREFSTAT) 3 = false →
      (fld (s.cg rREFSTAT) 0 0 = i → Does (.refInputLost b) s fun t => bit (t.cg rREFSTAT) (1 + i) = false) ∧
      (fld (s.cg rREFSTAT) 0 0 ≠ i → Does (.standbyReferenceInputLost b) s fun t => bit (t.cg rREFSTAT) (1 + i) = false) ∧
      (i ∉ s.sys.refRetired → Does (.refInputUsable b) s fun t => bit (t.cg rREFSTAT) (1 + i) = true)) ∧
    (s.sys.porHeld = false → s.sys.arbOut ≠ .failed →
      let failed := fun (t : State) => t.sys.arbOut = .failed ∧ t.sys.devFailN = false ∧ t.eng = []
      (bit (s.cg rREFSTAT) 3 = true → Does .refHoldTimeout s failed) ∧ (∀ u, Does (.deviceFailure u) s failed) ∧
      (welUp s = true → s.sys.sable = false → Does .watchdogExpiry s failed) ∧
      (s.sys.sable = false → ∀ rail, Does (.supplyFault rail false) s failed)) ∧
    (s.sys.arbOut = .failed → Does .deviceRestart s fun t => t.sys.heldInReset = false ∧ t.sys.devFailN = true) ∧
    (welUp s = true → fld (s.cg rMPSTAT) 1 2 = 2 → Does .mpHeartbeatLost s fun t => fld (t.cg rMPSTAT) 0 0 = 1 - fld (s.cg rMPSTAT) 0 0) ∧
    Does .powerOnReset s (fun t => t.sys.porHeld = !s.sys.porHeld ∧ t.eng = [] ∧ t.mem = Mem.reset) ∧
    (s.sys.porHeld = false → Does .deviceReset s fun t => t.eng = [] ∧ t.home = Home.reset ∧ t.mem.dram = s.mem.dram) ∧
    (∀ f, s.boot.phase = .idle → s.sys.porHeld = false → s.sys.heldInReset = false → s.sys.sable = false → vok s = false →
      Does (.coldStart ⟨false, f⟩) s fun t => t.boot.phase = .halted) ∧
    (∀ cap, fld (s.cg rMEMCFG) 0 2 = 0 → s.boot.phase = .recovery → 1 ≤ cap → cap ≤ 4 →
      Does (.memoryInitComplete cap) s fun t => fld (t.cg rMEMCFG) 0 2 = cap) ∧
    (s.boot.phase = .recovery → s.boot.recReset = false →
      Does .recoveryAnnounce s (fun t => t.boot.recOut.map Prod.fst = some 1) ∧
      (∀ x off os, s.boot.recSender = some x → os ≠ [] → os.length ≤ 1024 → off + os.length ≤ 8388608 →
        Does (.recoveryData x off os) s fun t => t.boot.recData = s.boot.recData ++ [(off, os)]) ∧
      (∀ x, s.boot.recSender = some x → Does .recoverySenderTimeout s fun t => t.boot.recSender = none) ∧
      (∀ x len b, s.boot.recSender = some x → fld (s.cg rMEMCFG) 0 2 ≠ 0 → installCheck s len = .inr b →
        Does (.recoveryInstall x len) s fun t => t.boot.recReset = true)) ∧
    (s.boot.phase = .recovery → s.boot.recReset = true → Does .recoveryLoaderReset s fun t => t.boot.phase = .idle)

/-- R551, R562 to R564, R581: the lock windows and the fuses. -/
def LocksComplete : Prop :=
  ∀ s,
    (∀ i, i < 16 →
      (bit (s.cg (rLKW i)) 0 = false → lkwOk s i = true → Does (.lkwLock .mgmt i) s fun t => bit (t.cg (rLKW i)) 0 = true) ∧
      (bit (s.cg (rLKW i)) 0 = true → bit (s.cg (rLKW i)) 1 = true → Does (.lkwRelease .mgmt i) s fun t =>
        bit (t.cg (rLKW i)) 0 = false)) ∧
    (∀ n, n < 4 → lifeState s = 0 →
      (slotValue s .owner n = none → Does (.programOwnerSlot .debug n) s fun t =>
        t.boot.otp.okey n = octetsOf (s.cgs (bootBlk + 0o10) 12)) ∧
      (slotValue s .owner n ≠ none → Does (.seal .debug) s fun t => t.boot.otp.sealed = true)) ∧
    (lifeState s = 1 ∨ lifeState s = 2 → verifyImage s (octetsOf (s.cgs (bootBlk + 0o4000) 2048)) 5 = 0 →
      (unpackWords 2 (imgBody (octetsOf (s.cgs (bootBlk + 0o4000) 2048)))).foldl (fun a x => a * 2 ^ 36 + x.toNat) 0 = otpSerial →
      Does (.openI .debug) s fun t => t.boot.otp.openF = true)

end Sys2Proof.Claims

/-- Each of these forms completes with its own effect, in every state in which the spec lets it: the branches; the commands of units,
groups, power, platform, pairing and grants; movers, gate lists, ports, gPTP, the Septeg transactions, the roles of a pair, power
states, resets, the start, locks and fuses.
The model's own choices and readings in it: log entries 2, 3, 59 and 80. -/
def Obligations.FormsComplete : Prop :=
  BranchesComplete ∧ UnitsComplete ∧ GrantsComplete ∧ MoversComplete ∧ GatesComplete ∧ PortsComplete ∧ TimeComplete ∧
    TransactionsComplete ∧ PairComplete ∧ PowerComplete ∧ LocksComplete

end
end

