-- ==== Sys2Proof/Laws/Bits.lean ====
section
/-! SUPPORT. Bits and fields of words: a bit of each operation, and a field after a field has been replaced. -/

namespace Sys2Proof.Machine

/-- Bit i as the library numbers bits from the most significant end. -/
theorem bit_eq_getMsbD (w : Word) {i : Nat} (h : i < 36) : bit w i = w.getMsbD i := by
  have e : 36 - 1 - i = 35 - i := by omega
  simp only [bit, fld, BitVec.getMsbD, h, decide_true, Bool.true_and, Nat.sub_self, Nat.zero_add, Nat.pow_one, e,
    BitVec.getLsbD, Nat.testBit_eq_decide_div_mod_eq]
  rcases Nat.mod_two_eq_zero_or_one (w.toNat / 2 ^ (35 - i)) with h | h <;> simp [h]

@[simp] theorem bit_and (x y : Word) {i : Nat} (h : i < 36) : bit (x &&& y) i = (bit x i && bit y i) := by
  simp [bit_eq_getMsbD _ h]

@[simp] theorem bit_or (x y : Word) {i : Nat} (h : i < 36) : bit (x ||| y) i = (bit x i || bit y i) := by
  simp [bit_eq_getMsbD _ h]

@[simp] theorem bit_not (x : Word) {i : Nat} (h : i < 36) : bit (~~~x) i = !bit x i := by
  simp [bit_eq_getMsbD _ h, h]

/-- Words with the same bits are equal. -/
theorem word_ext {x y : Word} (h : ∀ i, i < 36 → bit x i = bit y i) : x = y := by
  apply BitVec.eq_of_getMsbD_eq
  intro i hi
  have := h i hi
  rwa [bit_eq_getMsbD _ hi, bit_eq_getMsbD _ hi] at this

@[simp] theorem bit_zero (i : Nat) : bit 0#36 i = false := by simp [bit, fld]

theorem toNat_mkW (n : Nat) : (mkW n).toNat = n % 2 ^ 36 := by simp [mkW]

/-- A bit of a field placed in an otherwise zero word. -/
theorem bit_place {a b i : Nat} (hb : b < 36) (hab : a ≤ b) (hi : i < 36) (v : Nat) :
    bit (place a b v) i = (decide (a ≤ i ∧ i ≤ b) && (v % 2 ^ (b - a + 1)).testBit (b - i)) := by
  rw [bit_eq_getMsbD _ hi]
  have e : 36 - 1 - i = 35 - i := by omega
  simp only [place, mkW, BitVec.getMsbD, hi, decide_true, Bool.true_and, e, BitVec.getLsbD_ofNat, Nat.testBit_mul_two_pow]
  have h35 : 35 - i < 36 := by omega
  simp only [h35, decide_true, Bool.true_and]
  by_cases h1 : i ≤ b
  · have h2 : 35 - b ≤ 35 - i := by omega
    have h3 : 35 - i - (35 - b) = b - i := by omega
    simp only [h2, decide_true, Bool.true_and, h3]
    by_cases h4 : a ≤ i
    · simp [h1, h4]
    · have : (v % 2 ^ (b - a + 1)).testBit (b - i) = false := by
        apply Nat.testBit_lt_two_pow
        exact Nat.lt_of_lt_of_le (Nat.mod_lt _ (Nat.two_pow_pos _)) (Nat.pow_le_pow_right (by omega) (by omega))
      simp [h4, this]
  · have h2 : ¬ (35 - b ≤ 35 - i) := by omega
    simp [h1, h2]

/-- A bit of a mask. -/
theorem bit_maskW {a b i : Nat} (hb : b < 36) (hab : a ≤ b) (hi : i < 36) :
    bit (maskW a b) i = decide (a ≤ i ∧ i ≤ b) := by
  have h := bit_place hb hab hi (2 ^ (b - a + 1) - 1)
  have hlt : 2 ^ (b - a + 1) - 1 < 2 ^ (b - a + 1) := Nat.sub_lt (Nat.two_pow_pos _) Nat.one_pos
  have e : place a b (2 ^ (b - a + 1) - 1) = maskW a b := by
    unfold place maskW; rw [Nat.mod_eq_of_lt hlt]
  rw [e, Nat.mod_eq_of_lt hlt, Nat.testBit_two_pow_sub_one] at h
  rw [h]
  by_cases h1 : a ≤ i ∧ i ≤ b
  · have : b - i < b - a + 1 := by omega
    simp [h1, this]
  · simp [h1]

/-- A Boolean in bit j. -/
theorem bit_bitAt {i j : Nat} (hj : j < 36) (hi : i < 36) (v : Bool) : bit (bitAt j v) i = (decide (i = j) && v) := by
  rw [bitAt, bit_place hj (Nat.le_refl j) hi]
  by_cases h : i = j
  · subst h; cases v <;> simp
  · have : ¬ (j ≤ i ∧ i ≤ j) := by omega
    simp [h, this]

/-- A bit after a field has been replaced. -/
theorem bit_setFld {a b i : Nat} (hb : b < 36) (hab : a ≤ b) (hi : i < 36) (w : Word) (v : Nat) :
    bit (setFld w a b v) i =
      if a ≤ i ∧ i ≤ b then (v % 2 ^ (b - a + 1)).testBit (b - i) else bit w i := by
  simp only [setFld, bit_or _ _ hi, bit_and _ _ hi, bit_not _ hi, bit_maskW hb hab hi, bit_place hb hab hi]
  by_cases h : a ≤ i ∧ i ≤ b <;> simp [h]

/-- A bit after a bit has been replaced. -/
theorem bit_setBit {i j : Nat} (hj : j < 36) (hi : i < 36) (w : Word) (v : Bool) :
    bit (setBit w j v) i = if i = j then v else bit w i := by
  rw [setBit, bit_setFld hj (Nat.le_refl j) hi]
  by_cases h : i = j
  · subst h; cases v <;> simp
  · have : ¬ (j ≤ i ∧ i ≤ j) := by omega
    simp [h, this]

theorem fld_lt (w : Word) (a b : Nat) : fld w a b < 2 ^ (b - a + 1) := Nat.mod_lt _ (Nat.two_pow_pos _)

/-- Bit k, from its least significant end, of a field. -/
theorem testBit_fld (w : Word) (a b k : Nat) :
    (fld w a b).testBit k = (decide (k < b - a + 1) && w.toNat.testBit (35 - b + k)) := by
  rw [fld, Nat.testBit_mod_two_pow, Nat.testBit_div_two_pow, Nat.add_comm k]

theorem toNat_testBit (w : Word) {k : Nat} (hk : k < 36) : w.toNat.testBit k = bit w (35 - k) := by
  rw [bit_eq_getMsbD _ (by omega)]
  have e : 36 - 1 - (35 - k) = k := by omega
  have h : 35 - k < 36 := by omega
  simp only [BitVec.getMsbD, h, decide_true, Bool.true_and, e, BitVec.getLsbD]

theorem testBit_fld' (w : Word) {a b k : Nat} (hb : b < 36) (hab : a ≤ b) :
    (fld w a b).testBit k = (decide (k ≤ b - a) && bit w (b - k)) := by
  rw [testBit_fld]
  by_cases h : k ≤ b - a
  · have h1 : k < b - a + 1 := by omega
    have h2 : 35 - b + k < 36 := by omega
    have h3 : 35 - (35 - b + k) = b - k := by omega
    simp [h, h1, toNat_testBit w h2, h3]
  · have h1 : ¬ k < b - a + 1 := by omega
    simp [h, h1]

/-- The field that has been replaced. -/
theorem fld_setFld_same {a b : Nat} (hb : b < 36) (hab : a ≤ b) (w : Word) (v : Nat) :
    fld (setFld w a b v) a b = v % 2 ^ (b - a + 1) := by
  apply Nat.eq_of_testBit_eq
  intro k
  rw [testBit_fld' _ hb hab]
  by_cases h : k ≤ b - a
  · have h1 : b - k < 36 := by omega
    have h2 : a ≤ b - k ∧ b - k ≤ b := by omega
    have h3 : b - (b - k) = k := by omega
    rw [bit_setFld hb hab h1, if_pos h2, h3]; simp [h]
  · have : (v % 2 ^ (b - a + 1)).testBit k = false := by
      apply Nat.testBit_lt_two_pow
      exact Nat.lt_of_lt_of_le (Nat.mod_lt _ (Nat.two_pow_pos _)) (Nat.pow_le_pow_right (by omega) (by omega))
    simp [h, this]

/-- A field that is disjoint from the one replaced. -/
theorem fld_setFld_ne {a b c d : Nat} (hb : b < 36) (hab : a ≤ b) (hd : d < 36) (hcd : c ≤ d) (h : d < a ∨ b < c)
    (w : Word) (v : Nat) : fld (setFld w a b v) c d = fld w c d := by
  apply Nat.eq_of_testBit_eq
  intro k
  rw [testBit_fld' _ hd hcd, testBit_fld' _ hd hcd]
  by_cases hk : k ≤ d - c
  · have h1 : d - k < 36 := by omega
    have h2 : ¬ (a ≤ d - k ∧ d - k ≤ b) := by omega
    rw [bit_setFld hb hab h1, if_neg h2]
  · simp [hk]

theorem fld_setBit_ne {j c d : Nat} (hj : j < 36) (hd : d < 36) (hcd : c ≤ d) (h : d < j ∨ j < c) (w : Word) (v : Bool) :
    fld (setBit w j v) c d = fld w c d := fld_setFld_ne hj (Nat.le_refl j) hd hcd h w v.toNat

end Sys2Proof.Machine
end

