-- ==== Sys2Proof/Laws/Tbl.lean ====
section
/-! SUPPORT. The laws of sparse tables: a read after a write, and that writes keep the canonical form. -/

namespace Sys2Proof.Machine

variable {α : Type}

theorem tget_tdel_ne (d : α) (t : Tbl α) {i j : Nat} (h : i ≠ j) : tget d (tdel t i) j = tget d t j := by
  induction t with
  | nil => rfl
  | cons p t ih =>
    obtain ⟨k, v⟩ := p
    simp only [tdel]
    split
    · subst_vars; simp [tget, h, ih]
    · simp [tget, ih]

theorem tget_tput_same (d : α) (t : Tbl α) (i : Nat) (v : α) : tget d (tput t i v) i = v := by
  induction t with
  | nil => simp [tput, tget]
  | cons p t ih =>
    obtain ⟨k, u⟩ := p
    simp only [tput]
    split
    · simp [tget]
    · split
      · simp [tget]
      · simp [tget, *]

theorem tget_tput_ne (d : α) (t : Tbl α) {i j : Nat} (v : α) (h : i ≠ j) :
    tget d (tput t i v) j = tget d t j := by
  induction t with
  | nil => simp [tput, tget, h]
  | cons p t ih =>
    obtain ⟨k, u⟩ := p
    simp only [tput]
    split
    · simp [tget, h]
    · split
      · subst_vars; simp [tget, h]
      · simp [tget, ih]

theorem tget_notin (d : α) (t : Tbl α) (i : Nat) (h : ∀ p ∈ t, i < p.1) : tget d t i = d := by
  induction t with
  | nil => rfl
  | cons p t ih =>
    obtain ⟨k, v⟩ := p
    have hk : k ≠ i := Nat.ne_of_gt (h (k, v) (by simp))
    simp only [tget, if_neg hk]
    exact ih fun q hq => h q (by simp [hq])

theorem trising_lt {t : Tbl α} {lo : Nat} (h : trising (some lo) t = true) : ∀ p ∈ t, lo < p.1 := by
  induction t generalizing lo with
  | nil => simp
  | cons q t ih =>
    obtain ⟨k, v⟩ := q
    simp only [trising, Bool.and_eq_true, decide_eq_true_eq] at h
    intro p hp
    rcases List.mem_cons.mp hp with rfl | hp
    · exact h.1
    · exact Nat.lt_trans h.1 (ih h.2 p hp)

theorem trising_none_of_some {t : Tbl α} {lo : Nat} (h : trising (some lo) t = true) :
    trising none t = true := by
  cases t with
  | nil => rfl
  | cons q t => simp only [trising, Bool.and_eq_true] at h; exact h.2

theorem tget_tdel_same (d : α) (t : Tbl α) (i : Nat) : tget d (tdel t i) i = d := by
  induction t with
  | nil => rfl
  | cons p t ih =>
    obtain ⟨k, v⟩ := p
    simp only [tdel]
    split
    · exact ih
    · simp [tget, *]

theorem trising_some_of {t : Tbl α} {lo hi : Nat} (hl : lo ≤ hi) (h : trising (some hi) t = true) :
    trising (some lo) t = true := by
  cases t with
  | nil => rfl
  | cons q t =>
    simp only [trising, Bool.and_eq_true, decide_eq_true_eq] at h ⊢
    exact ⟨Nat.lt_of_le_of_lt hl h.1, h.2⟩

theorem trising_tdel {t : Tbl α} {o : Option Nat} (i : Nat) (h : trising o t = true) :
    trising o (tdel t i) = true := by
  induction t generalizing o with
  | nil => simpa [tdel] using h
  | cons p t ih =>
    obtain ⟨k, v⟩ := p
    simp only [tdel]
    cases o with
    | none =>
      simp only [trising] at h
      split
      · exact ih (trising_none_of_some h)
      · simpa only [trising] using ih h
    | some lo =>
      simp only [trising, Bool.and_eq_true, decide_eq_true_eq] at h
      split
      · exact ih (trising_some_of (Nat.le_of_lt h.1) h.2)
      · simpa only [trising, Bool.and_eq_true, decide_eq_true_eq] using ⟨h.1, ih h.2⟩

theorem trising_tput {t : Tbl α} {o : Option Nat} (i : Nat) (v : α) (h : trising o t = true)
    (hi : ∀ lo, o = some lo → lo < i) : trising o (tput t i v) = true := by
  induction t generalizing o with
  | nil =>
    cases o with
    | none => rfl
    | some lo => simp [tput, trising, hi lo rfl]
  | cons p t ih =>
    obtain ⟨k, u⟩ := p
    simp only [tput]
    split
    · rename_i hik
      cases o with
      | none => simp only [trising] at h ⊢; simp [hik, h]
      | some lo =>
        simp only [trising, Bool.and_eq_true, decide_eq_true_eq] at h ⊢
        exact ⟨hi lo rfl, hik, h.2⟩
    · split
      · subst_vars
        cases o <;> simpa [trising] using h
      · rename_i h1 h2
        have hki : k < i := by omega
        cases o with
        | none =>
          simp only [trising] at h ⊢
          exact ih h (by intro lo hl; cases hl; exact hki)
        | some lo =>
          simp only [trising, Bool.and_eq_true] at h ⊢
          exact ⟨h.1, ih h.2 (by intro lo hl; cases hl; exact hki)⟩

theorem mem_tdel {t : Tbl α} {i : Nat} {p : Nat × α} (h : p ∈ tdel t i) : p ∈ t := by
  induction t with
  | nil => simp [tdel] at h
  | cons q t ih =>
    obtain ⟨k, v⟩ := q
    simp only [tdel] at h
    split at h
    · exact List.mem_cons_of_mem _ (ih h)
    · rcases List.mem_cons.mp h with rfl | h
      · simp
      · exact List.mem_cons_of_mem _ (ih h)

theorem mem_tput {t : Tbl α} {i : Nat} {v : α} {p : Nat × α} (h : p ∈ tput t i v) : p = (i, v) ∨ p ∈ t := by
  induction t with
  | nil => simpa [tput] using h
  | cons q t ih =>
    obtain ⟨k, u⟩ := q
    simp only [tput] at h
    split at h
    · simpa using h
    · split at h
      · rcases List.mem_cons.mp h with rfl | h
        · exact .inl rfl
        · exact .inr (List.mem_cons_of_mem _ h)
      · rcases List.mem_cons.mp h with rfl | h
        · exact .inr (by simp)
        · rcases ih h with rfl | h
          · exact .inl rfl
          · exact .inr (List.mem_cons_of_mem _ h)

variable [DecidableEq α]

@[simp] theorem tget_tset_ne (d : α) (t : Tbl α) {i j : Nat} (v : α) (h : i ≠ j) :
    tget d (tset d t i v) j = tget d t j := by
  unfold tset
  split
  · exact tget_tdel_ne d t h
  · exact tget_tput_ne d t v h

@[simp] theorem tget_tset_same (d : α) (t : Tbl α) (i : Nat) (v : α) : tget d (tset d t i v) i = v := by
  unfold tset
  split
  · subst_vars; exact tget_tdel_same _ t i
  · exact tget_tput_same d t i v

/-- A write keeps the canonical form. -/
theorem twf_tset (d : α) {t : Tbl α} (ht : twf d t = true) (i : Nat) (v : α) :
    twf d (tset d t i v) = true := by
  simp only [twf, Bool.and_eq_true, List.all_eq_true, decide_eq_true_eq] at ht ⊢
  unfold tset
  split
  · exact ⟨trising_tdel i ht.1, fun p hp => ht.2 p (mem_tdel hp)⟩
  · rename_i hv
    refine ⟨trising_tput i v ht.1 (by simp), fun p hp => ?_⟩
    rcases mem_tput hp with rfl | hp
    · exact hv
    · exact ht.2 p hp

theorem trising_of_twf {d : α} {t : Tbl α} (h : twf d t = true) : trising none t = true := by
  simp only [twf, Bool.and_eq_true] at h; exact h.1

end Sys2Proof.Machine
end

