-- ==== Sys2Proof/Laws/State.lean ====
section
/-! SUPPORT. What each update of the state does to each field: one lemma per field and update, true by definition. -/

namespace Sys2Proof.Machine

variable (s : State)

/-! ### setE -/

@[simp] theorem State.setE_eng (n : Nat) (g : Engine) : (s.setE n g).eng = tset Engine.reset s.eng n g := rfl
@[simp] theorem State.setE_home (n : Nat) (g : Engine) : (s.setE n g).home = s.home := rfl
@[simp] theorem State.setE_mem (n : Nat) (g : Engine) : (s.setE n g).mem = s.mem := rfl
@[simp] theorem State.setE_ctl (n : Nat) (g : Engine) : (s.setE n g).ctl = s.ctl := rfl
@[simp] theorem State.setE_rel (n : Nat) (g : Engine) : (s.setE n g).rel = s.rel := rfl
@[simp] theorem State.setE_movers (n : Nat) (g : Engine) : (s.setE n g).movers = s.movers := rfl
@[simp] theorem State.setE_net (n : Nat) (g : Engine) : (s.setE n g).net = s.net := rfl
@[simp] theorem State.setE_wel (n : Nat) (g : Engine) : (s.setE n g).wel = s.wel := rfl
@[simp] theorem State.setE_boot (n : Nat) (g : Engine) : (s.setE n g).boot = s.boot := rfl
@[simp] theorem State.setE_sys (n : Nat) (g : Engine) : (s.setE n g).sys = s.sys := rfl
@[simp] theorem State.setE_answer (n : Nat) (g : Engine) : (s.setE n g).answer = s.answer := rfl
@[simp] theorem State.setE_freeCtr (n : Nat) (g : Engine) : (s.setE n g).freeCtr = s.freeCtr := rfl
@[simp] theorem State.setE_pending (n : Nat) (g : Engine) : (s.setE n g).pending = s.pending := rfl
@[simp] theorem State.setE_cg (n : Nat) (g : Engine) (i : Nat) : (s.setE n g).cg i = s.cg i := rfl
@[simp] theorem State.setE_hl (n : Nat) (g : Engine) (i : Nat) : (s.setE n g).hl i = s.hl i := rfl
@[simp] theorem State.setE_port (n : Nat) (g : Engine) (i : Nat) : (s.setE n g).port i = s.port i := rfl
@[simp] theorem State.setE_mover (n : Nat) (g : Engine) (i : Nat) : (s.setE n g).mover i = s.mover i := rfl

/-! ### modE -/

@[simp] theorem State.modE_home (n : Nat) (f : Engine → Engine) : (s.modE n f).home = s.home := by rw [State.modE, State.setE_home]
@[simp] theorem State.modE_mem (n : Nat) (f : Engine → Engine) : (s.modE n f).mem = s.mem := by rw [State.modE, State.setE_mem]
@[simp] theorem State.modE_ctl (n : Nat) (f : Engine → Engine) : (s.modE n f).ctl = s.ctl := by rw [State.modE, State.setE_ctl]
@[simp] theorem State.modE_rel (n : Nat) (f : Engine → Engine) : (s.modE n f).rel = s.rel := by rw [State.modE, State.setE_rel]
@[simp] theorem State.modE_movers (n : Nat) (f : Engine → Engine) : (s.modE n f).movers = s.movers := by rw [State.modE, State.setE_movers]
@[simp] theorem State.modE_net (n : Nat) (f : Engine → Engine) : (s.modE n f).net = s.net := by rw [State.modE, State.setE_net]
@[simp] theorem State.modE_wel (n : Nat) (f : Engine → Engine) : (s.modE n f).wel = s.wel := by rw [State.modE, State.setE_wel]
@[simp] theorem State.modE_boot (n : Nat) (f : Engine → Engine) : (s.modE n f).boot = s.boot := by rw [State.modE, State.setE_boot]
@[simp] theorem State.modE_sys (n : Nat) (f : Engine → Engine) : (s.modE n f).sys = s.sys := by rw [State.modE, State.setE_sys]
@[simp] theorem State.modE_answer (n : Nat) (f : Engine → Engine) : (s.modE n f).answer = s.answer := by rw [State.modE, State.setE_answer]
@[simp] theorem State.modE_freeCtr (n : Nat) (f : Engine → Engine) : (s.modE n f).freeCtr = s.freeCtr := by rw [State.modE, State.setE_freeCtr]
@[simp] theorem State.modE_pending (n : Nat) (f : Engine → Engine) : (s.modE n f).pending = s.pending := by rw [State.modE, State.setE_pending]
@[simp] theorem State.modE_cg (n : Nat) (f : Engine → Engine) (i : Nat) : (s.modE n f).cg i = s.cg i := by rw [State.modE, State.setE_cg]
@[simp] theorem State.modE_hl (n : Nat) (f : Engine → Engine) (i : Nat) : (s.modE n f).hl i = s.hl i := by rw [State.modE, State.setE_hl]
@[simp] theorem State.modE_port (n : Nat) (f : Engine → Engine) (i : Nat) : (s.modE n f).port i = s.port i := by rw [State.modE, State.setE_port]
@[simp] theorem State.modE_mover (n : Nat) (f : Engine → Engine) (i : Nat) : (s.modE n f).mover i = s.mover i := by rw [State.modE, State.setE_mover]

/-! ### cs -/

@[simp] theorem State.cs_eng (off : Nat) (w : Word) : (s.cs off w).eng = s.eng := rfl
@[simp] theorem State.cs_home (off : Nat) (w : Word) : (s.cs off w).home = s.home := rfl
@[simp] theorem State.cs_mem (off : Nat) (w : Word) : (s.cs off w).mem = s.mem := rfl
@[simp] theorem State.cs_ctl (off : Nat) (w : Word) : (s.cs off w).ctl = tset (ctlReset off) s.ctl off w := rfl
@[simp] theorem State.cs_rel (off : Nat) (w : Word) : (s.cs off w).rel = s.rel := rfl
@[simp] theorem State.cs_movers (off : Nat) (w : Word) : (s.cs off w).movers = s.movers := rfl
@[simp] theorem State.cs_net (off : Nat) (w : Word) : (s.cs off w).net = s.net := rfl
@[simp] theorem State.cs_wel (off : Nat) (w : Word) : (s.cs off w).wel = s.wel := rfl
@[simp] theorem State.cs_boot (off : Nat) (w : Word) : (s.cs off w).boot = s.boot := rfl
@[simp] theorem State.cs_sys (off : Nat) (w : Word) : (s.cs off w).sys = s.sys := rfl
@[simp] theorem State.cs_answer (off : Nat) (w : Word) : (s.cs off w).answer = s.answer := rfl
@[simp] theorem State.cs_freeCtr (off : Nat) (w : Word) : (s.cs off w).freeCtr = s.freeCtr := rfl
@[simp] theorem State.cs_pending (off : Nat) (w : Word) : (s.cs off w).pending = s.pending := rfl
@[simp] theorem State.cs_e (off : Nat) (w : Word) (i : Nat) : (s.cs off w).e i = s.e i := rfl
@[simp] theorem State.cs_hl (off : Nat) (w : Word) (i : Nat) : (s.cs off w).hl i = s.hl i := rfl
@[simp] theorem State.cs_port (off : Nat) (w : Word) (i : Nat) : (s.cs off w).port i = s.port i := rfl
@[simp] theorem State.cs_mover (off : Nat) (w : Word) (i : Nat) : (s.cs off w).mover i = s.mover i := rfl

/-! ### csf -/

@[simp] theorem State.csf_eng (off a b v : Nat) : (s.csf off a b v).eng = s.eng := by rw [State.csf, State.cs_eng]
@[simp] theorem State.csf_home (off a b v : Nat) : (s.csf off a b v).home = s.home := by rw [State.csf, State.cs_home]
@[simp] theorem State.csf_mem (off a b v : Nat) : (s.csf off a b v).mem = s.mem := by rw [State.csf, State.cs_mem]
@[simp] theorem State.csf_rel (off a b v : Nat) : (s.csf off a b v).rel = s.rel := by rw [State.csf, State.cs_rel]
@[simp] theorem State.csf_movers (off a b v : Nat) : (s.csf off a b v).movers = s.movers := by rw [State.csf, State.cs_movers]
@[simp] theorem State.csf_net (off a b v : Nat) : (s.csf off a b v).net = s.net := by rw [State.csf, State.cs_net]
@[simp] theorem State.csf_wel (off a b v : Nat) : (s.csf off a b v).wel = s.wel := by rw [State.csf, State.cs_wel]
@[simp] theorem State.csf_boot (off a b v : Nat) : (s.csf off a b v).boot = s.boot := by rw [State.csf, State.cs_boot]
@[simp] theorem State.csf_sys (off a b v : Nat) : (s.csf off a b v).sys = s.sys := by rw [State.csf, State.cs_sys]
@[simp] theorem State.csf_answer (off a b v : Nat) : (s.csf off a b v).answer = s.answer := by rw [State.csf, State.cs_answer]
@[simp] theorem State.csf_freeCtr (off a b v : Nat) : (s.csf off a b v).freeCtr = s.freeCtr := by rw [State.csf, State.cs_freeCtr]
@[simp] theorem State.csf_pending (off a b v : Nat) : (s.csf off a b v).pending = s.pending := by rw [State.csf, State.cs_pending]
@[simp] theorem State.csf_e (off a b v : Nat) (i : Nat) : (s.csf off a b v).e i = s.e i := by rw [State.csf, State.cs_e]
@[simp] theorem State.csf_hl (off a b v : Nat) (i : Nat) : (s.csf off a b v).hl i = s.hl i := by rw [State.csf, State.cs_hl]
@[simp] theorem State.csf_port (off a b v : Nat) (i : Nat) : (s.csf off a b v).port i = s.port i := by rw [State.csf, State.cs_port]
@[simp] theorem State.csf_mover (off a b v : Nat) (i : Nat) : (s.csf off a b v).mover i = s.mover i := by rw [State.csf, State.cs_mover]

/-! ### cs2 -/

@[simp] theorem State.cs2_eng (off v : Nat) : (s.cs2 off v).eng = s.eng := by rw [State.cs2, State.cs_eng, State.cs_eng]
@[simp] theorem State.cs2_home (off v : Nat) : (s.cs2 off v).home = s.home := by rw [State.cs2, State.cs_home, State.cs_home]
@[simp] theorem State.cs2_mem (off v : Nat) : (s.cs2 off v).mem = s.mem := by rw [State.cs2, State.cs_mem, State.cs_mem]
@[simp] theorem State.cs2_rel (off v : Nat) : (s.cs2 off v).rel = s.rel := by rw [State.cs2, State.cs_rel, State.cs_rel]
@[simp] theorem State.cs2_movers (off v : Nat) : (s.cs2 off v).movers = s.movers := by rw [State.cs2, State.cs_movers, State.cs_movers]
@[simp] theorem State.cs2_net (off v : Nat) : (s.cs2 off v).net = s.net := by rw [State.cs2, State.cs_net, State.cs_net]
@[simp] theorem State.cs2_wel (off v : Nat) : (s.cs2 off v).wel = s.wel := by rw [State.cs2, State.cs_wel, State.cs_wel]
@[simp] theorem State.cs2_boot (off v : Nat) : (s.cs2 off v).boot = s.boot := by rw [State.cs2, State.cs_boot, State.cs_boot]
@[simp] theorem State.cs2_sys (off v : Nat) : (s.cs2 off v).sys = s.sys := by rw [State.cs2, State.cs_sys, State.cs_sys]
@[simp] theorem State.cs2_answer (off v : Nat) : (s.cs2 off v).answer = s.answer := by rw [State.cs2, State.cs_answer, State.cs_answer]
@[simp] theorem State.cs2_freeCtr (off v : Nat) : (s.cs2 off v).freeCtr = s.freeCtr := by rw [State.cs2, State.cs_freeCtr, State.cs_freeCtr]
@[simp] theorem State.cs2_pending (off v : Nat) : (s.cs2 off v).pending = s.pending := by rw [State.cs2, State.cs_pending, State.cs_pending]
@[simp] theorem State.cs2_e (off v : Nat) (i : Nat) : (s.cs2 off v).e i = s.e i := by rw [State.cs2, State.cs_e, State.cs_e]
@[simp] theorem State.cs2_hl (off v : Nat) (i : Nat) : (s.cs2 off v).hl i = s.hl i := by rw [State.cs2, State.cs_hl, State.cs_hl]
@[simp] theorem State.cs2_port (off v : Nat) (i : Nat) : (s.cs2 off v).port i = s.port i := by rw [State.cs2, State.cs_port, State.cs_port]
@[simp] theorem State.cs2_mover (off v : Nat) (i : Nat) : (s.cs2 off v).mover i = s.mover i := by rw [State.cs2, State.cs_mover, State.cs_mover]

/-! ### cadd2 -/

@[simp] theorem State.cadd2_eng (off v : Nat) : (s.cadd2 off v).eng = s.eng := by rw [State.cadd2, State.cs2_eng]
@[simp] theorem State.cadd2_home (off v : Nat) : (s.cadd2 off v).home = s.home := by rw [State.cadd2, State.cs2_home]
@[simp] theorem State.cadd2_mem (off v : Nat) : (s.cadd2 off v).mem = s.mem := by rw [State.cadd2, State.cs2_mem]
@[simp] theorem State.cadd2_rel (off v : Nat) : (s.cadd2 off v).rel = s.rel := by rw [State.cadd2, State.cs2_rel]
@[simp] theorem State.cadd2_movers (off v : Nat) : (s.cadd2 off v).movers = s.movers := by rw [State.cadd2, State.cs2_movers]
@[simp] theorem State.cadd2_net (off v : Nat) : (s.cadd2 off v).net = s.net := by rw [State.cadd2, State.cs2_net]
@[simp] theorem State.cadd2_wel (off v : Nat) : (s.cadd2 off v).wel = s.wel := by rw [State.cadd2, State.cs2_wel]
@[simp] theorem State.cadd2_boot (off v : Nat) : (s.cadd2 off v).boot = s.boot := by rw [State.cadd2, State.cs2_boot]
@[simp] theorem State.cadd2_sys (off v : Nat) : (s.cadd2 off v).sys = s.sys := by rw [State.cadd2, State.cs2_sys]
@[simp] theorem State.cadd2_answer (off v : Nat) : (s.cadd2 off v).answer = s.answer := by rw [State.cadd2, State.cs2_answer]
@[simp] theorem State.cadd2_freeCtr (off v : Nat) : (s.cadd2 off v).freeCtr = s.freeCtr := by rw [State.cadd2, State.cs2_freeCtr]
@[simp] theorem State.cadd2_pending (off v : Nat) : (s.cadd2 off v).pending = s.pending := by rw [State.cadd2, State.cs2_pending]
@[simp] theorem State.cadd2_e (off v : Nat) (i : Nat) : (s.cadd2 off v).e i = s.e i := by rw [State.cadd2, State.cs2_e]
@[simp] theorem State.cadd2_hl (off v : Nat) (i : Nat) : (s.cadd2 off v).hl i = s.hl i := by rw [State.cadd2, State.cs2_hl]
@[simp] theorem State.cadd2_port (off v : Nat) (i : Nat) : (s.cadd2 off v).port i = s.port i := by rw [State.cadd2, State.cs2_port]
@[simp] theorem State.cadd2_mover (off v : Nat) (i : Nat) : (s.cadd2 off v).mover i = s.mover i := by rw [State.cadd2, State.cs2_mover]

/-! ### csat -/

@[simp] theorem State.csat_eng (off a b : Nat) : (s.csat off a b).eng = s.eng := by rw [State.csat, State.csf_eng]
@[simp] theorem State.csat_home (off a b : Nat) : (s.csat off a b).home = s.home := by rw [State.csat, State.csf_home]
@[simp] theorem State.csat_mem (off a b : Nat) : (s.csat off a b).mem = s.mem := by rw [State.csat, State.csf_mem]
@[simp] theorem State.csat_rel (off a b : Nat) : (s.csat off a b).rel = s.rel := by rw [State.csat, State.csf_rel]
@[simp] theorem State.csat_movers (off a b : Nat) : (s.csat off a b).movers = s.movers := by rw [State.csat, State.csf_movers]
@[simp] theorem State.csat_net (off a b : Nat) : (s.csat off a b).net = s.net := by rw [State.csat, State.csf_net]
@[simp] theorem State.csat_wel (off a b : Nat) : (s.csat off a b).wel = s.wel := by rw [State.csat, State.csf_wel]
@[simp] theorem State.csat_boot (off a b : Nat) : (s.csat off a b).boot = s.boot := by rw [State.csat, State.csf_boot]
@[simp] theorem State.csat_sys (off a b : Nat) : (s.csat off a b).sys = s.sys := by rw [State.csat, State.csf_sys]
@[simp] theorem State.csat_answer (off a b : Nat) : (s.csat off a b).answer = s.answer := by rw [State.csat, State.csf_answer]
@[simp] theorem State.csat_freeCtr (off a b : Nat) : (s.csat off a b).freeCtr = s.freeCtr := by rw [State.csat, State.csf_freeCtr]
@[simp] theorem State.csat_pending (off a b : Nat) : (s.csat off a b).pending = s.pending := by rw [State.csat, State.csf_pending]
@[simp] theorem State.csat_e (off a b : Nat) (i : Nat) : (s.csat off a b).e i = s.e i := by rw [State.csat, State.csf_e]
@[simp] theorem State.csat_hl (off a b : Nat) (i : Nat) : (s.csat off a b).hl i = s.hl i := by rw [State.csat, State.csf_hl]
@[simp] theorem State.csat_port (off a b : Nat) (i : Nat) : (s.csat off a b).port i = s.port i := by rw [State.csat, State.csf_port]
@[simp] theorem State.csat_mover (off a b : Nat) (i : Nat) : (s.csat off a b).mover i = s.mover i := by rw [State.csat, State.csf_mover]

/-! ### modMem -/

@[simp] theorem State.modMem_eng (f : Mem → Mem) : (s.modMem f).eng = s.eng := rfl
@[simp] theorem State.modMem_home (f : Mem → Mem) : (s.modMem f).home = s.home := rfl
@[simp] theorem State.modMem_mem (f : Mem → Mem) : (s.modMem f).mem = f s.mem := rfl
@[simp] theorem State.modMem_ctl (f : Mem → Mem) : (s.modMem f).ctl = s.ctl := rfl
@[simp] theorem State.modMem_rel (f : Mem → Mem) : (s.modMem f).rel = s.rel := rfl
@[simp] theorem State.modMem_movers (f : Mem → Mem) : (s.modMem f).movers = s.movers := rfl
@[simp] theorem State.modMem_net (f : Mem → Mem) : (s.modMem f).net = s.net := rfl
@[simp] theorem State.modMem_wel (f : Mem → Mem) : (s.modMem f).wel = s.wel := rfl
@[simp] theorem State.modMem_boot (f : Mem → Mem) : (s.modMem f).boot = s.boot := rfl
@[simp] theorem State.modMem_sys (f : Mem → Mem) : (s.modMem f).sys = s.sys := rfl
@[simp] theorem State.modMem_answer (f : Mem → Mem) : (s.modMem f).answer = s.answer := rfl
@[simp] theorem State.modMem_freeCtr (f : Mem → Mem) : (s.modMem f).freeCtr = s.freeCtr := rfl
@[simp] theorem State.modMem_pending (f : Mem → Mem) : (s.modMem f).pending = s.pending := rfl
@[simp] theorem State.modMem_cg (f : Mem → Mem) (i : Nat) : (s.modMem f).cg i = s.cg i := rfl
@[simp] theorem State.modMem_e (f : Mem → Mem) (i : Nat) : (s.modMem f).e i = s.e i := rfl
@[simp] theorem State.modMem_hl (f : Mem → Mem) (i : Nat) : (s.modMem f).hl i = s.hl i := rfl
@[simp] theorem State.modMem_port (f : Mem → Mem) (i : Nat) : (s.modMem f).port i = s.port i := rfl
@[simp] theorem State.modMem_mover (f : Mem → Mem) (i : Nat) : (s.modMem f).mover i = s.mover i := rfl

/-! ### modHome -/

@[simp] theorem State.modHome_eng (f : Home → Home) : (s.modHome f).eng = s.eng := rfl
@[simp] theorem State.modHome_home (f : Home → Home) : (s.modHome f).home = f s.home := rfl
@[simp] theorem State.modHome_mem (f : Home → Home) : (s.modHome f).mem = s.mem := rfl
@[simp] theorem State.modHome_ctl (f : Home → Home) : (s.modHome f).ctl = s.ctl := rfl
@[simp] theorem State.modHome_rel (f : Home → Home) : (s.modHome f).rel = s.rel := rfl
@[simp] theorem State.modHome_movers (f : Home → Home) : (s.modHome f).movers = s.movers := rfl
@[simp] theorem State.modHome_net (f : Home → Home) : (s.modHome f).net = s.net := rfl
@[simp] theorem State.modHome_wel (f : Home → Home) : (s.modHome f).wel = s.wel := rfl
@[simp] theorem State.modHome_boot (f : Home → Home) : (s.modHome f).boot = s.boot := rfl
@[simp] theorem State.modHome_sys (f : Home → Home) : (s.modHome f).sys = s.sys := rfl
@[simp] theorem State.modHome_answer (f : Home → Home) : (s.modHome f).answer = s.answer := rfl
@[simp] theorem State.modHome_freeCtr (f : Home → Home) : (s.modHome f).freeCtr = s.freeCtr := rfl
@[simp] theorem State.modHome_pending (f : Home → Home) : (s.modHome f).pending = s.pending := rfl
@[simp] theorem State.modHome_cg (f : Home → Home) (i : Nat) : (s.modHome f).cg i = s.cg i := rfl
@[simp] theorem State.modHome_e (f : Home → Home) (i : Nat) : (s.modHome f).e i = s.e i := rfl
@[simp] theorem State.modHome_port (f : Home → Home) (i : Nat) : (s.modHome f).port i = s.port i := rfl
@[simp] theorem State.modHome_mover (f : Home → Home) (i : Nat) : (s.modHome f).mover i = s.mover i := rfl

/-! ### modRel -/

@[simp] theorem State.modRel_eng (f : Rel → Rel) : (s.modRel f).eng = s.eng := rfl
@[simp] theorem State.modRel_home (f : Rel → Rel) : (s.modRel f).home = s.home := rfl
@[simp] theorem State.modRel_mem (f : Rel → Rel) : (s.modRel f).mem = s.mem := rfl
@[simp] theorem State.modRel_ctl (f : Rel → Rel) : (s.modRel f).ctl = s.ctl := rfl
@[simp] theorem State.modRel_rel (f : Rel → Rel) : (s.modRel f).rel = f s.rel := rfl
@[simp] theorem State.modRel_movers (f : Rel → Rel) : (s.modRel f).movers = s.movers := rfl
@[simp] theorem State.modRel_net (f : Rel → Rel) : (s.modRel f).net = s.net := rfl
@[simp] theorem State.modRel_wel (f : Rel → Rel) : (s.modRel f).wel = s.wel := rfl
@[simp] theorem State.modRel_boot (f : Rel → Rel) : (s.modRel f).boot = s.boot := rfl
@[simp] theorem State.modRel_sys (f : Rel → Rel) : (s.modRel f).sys = s.sys := rfl
@[simp] theorem State.modRel_answer (f : Rel → Rel) : (s.modRel f).answer = s.answer := rfl
@[simp] theorem State.modRel_freeCtr (f : Rel → Rel) : (s.modRel f).freeCtr = s.freeCtr := rfl
@[simp] theorem State.modRel_pending (f : Rel → Rel) : (s.modRel f).pending = s.pending := rfl
@[simp] theorem State.modRel_cg (f : Rel → Rel) (i : Nat) : (s.modRel f).cg i = s.cg i := rfl
@[simp] theorem State.modRel_e (f : Rel → Rel) (i : Nat) : (s.modRel f).e i = s.e i := rfl
@[simp] theorem State.modRel_hl (f : Rel → Rel) (i : Nat) : (s.modRel f).hl i = s.hl i := rfl
@[simp] theorem State.modRel_port (f : Rel → Rel) (i : Nat) : (s.modRel f).port i = s.port i := rfl
@[simp] theorem State.modRel_mover (f : Rel → Rel) (i : Nat) : (s.modRel f).mover i = s.mover i := rfl

/-! ### modNet -/

@[simp] theorem State.modNet_eng (f : Net → Net) : (s.modNet f).eng = s.eng := rfl
@[simp] theorem State.modNet_home (f : Net → Net) : (s.modNet f).home = s.home := rfl
@[simp] theorem State.modNet_mem (f : Net → Net) : (s.modNet f).mem = s.mem := rfl
@[simp] theorem State.modNet_ctl (f : Net → Net) : (s.modNet f).ctl = s.ctl := rfl
@[simp] theorem State.modNet_rel (f : Net → Net) : (s.modNet f).rel = s.rel := rfl
@[simp] theorem State.modNet_movers (f : Net → Net) : (s.modNet f).movers = s.movers := rfl
@[simp] theorem State.modNet_net (f : Net → Net) : (s.modNet f).net = f s.net := rfl
@[simp] theorem State.modNet_wel (f : Net → Net) : (s.modNet f).wel = s.wel := rfl
@[simp] theorem State.modNet_boot (f : Net → Net) : (s.modNet f).boot = s.boot := rfl
@[simp] theorem State.modNet_sys (f : Net → Net) : (s.modNet f).sys = s.sys := rfl
@[simp] theorem State.modNet_answer (f : Net → Net) : (s.modNet f).answer = s.answer := rfl
@[simp] theorem State.modNet_freeCtr (f : Net → Net) : (s.modNet f).freeCtr = s.freeCtr := rfl
@[simp] theorem State.modNet_pending (f : Net → Net) : (s.modNet f).pending = s.pending := rfl
@[simp] theorem State.modNet_cg (f : Net → Net) (i : Nat) : (s.modNet f).cg i = s.cg i := rfl
@[simp] theorem State.modNet_e (f : Net → Net) (i : Nat) : (s.modNet f).e i = s.e i := rfl
@[simp] theorem State.modNet_hl (f : Net → Net) (i : Nat) : (s.modNet f).hl i = s.hl i := rfl
@[simp] theorem State.modNet_mover (f : Net → Net) (i : Nat) : (s.modNet f).mover i = s.mover i := rfl

/-! ### modWel -/

@[simp] theorem State.modWel_eng (f : Wel → Wel) : (s.modWel f).eng = s.eng := rfl
@[simp] theorem State.modWel_home (f : Wel → Wel) : (s.modWel f).home = s.home := rfl
@[simp] theorem State.modWel_mem (f : Wel → Wel) : (s.modWel f).mem = s.mem := rfl
@[simp] theorem State.modWel_ctl (f : Wel → Wel) : (s.modWel f).ctl = s.ctl := rfl
@[simp] theorem State.modWel_rel (f : Wel → Wel) : (s.modWel f).rel = s.rel := rfl
@[simp] theorem State.modWel_movers (f : Wel → Wel) : (s.modWel f).movers = s.movers := rfl
@[simp] theorem State.modWel_net (f : Wel → Wel) : (s.modWel f).net = s.net := rfl
@[simp] theorem State.modWel_wel (f : Wel → Wel) : (s.modWel f).wel = f s.wel := rfl
@[simp] theorem State.modWel_boot (f : Wel → Wel) : (s.modWel f).boot = s.boot := rfl
@[simp] theorem State.modWel_sys (f : Wel → Wel) : (s.modWel f).sys = s.sys := rfl
@[simp] theorem State.modWel_answer (f : Wel → Wel) : (s.modWel f).answer = s.answer := rfl
@[simp] theorem State.modWel_freeCtr (f : Wel → Wel) : (s.modWel f).freeCtr = s.freeCtr := rfl
@[simp] theorem State.modWel_pending (f : Wel → Wel) : (s.modWel f).pending = s.pending := rfl
@[simp] theorem State.modWel_cg (f : Wel → Wel) (i : Nat) : (s.modWel f).cg i = s.cg i := rfl
@[simp] theorem State.modWel_e (f : Wel → Wel) (i : Nat) : (s.modWel f).e i = s.e i := rfl
@[simp] theorem State.modWel_hl (f : Wel → Wel) (i : Nat) : (s.modWel f).hl i = s.hl i := rfl
@[simp] theorem State.modWel_port (f : Wel → Wel) (i : Nat) : (s.modWel f).port i = s.port i := rfl
@[simp] theorem State.modWel_mover (f : Wel → Wel) (i : Nat) : (s.modWel f).mover i = s.mover i := rfl

/-! ### modBoot -/

@[simp] theorem State.modBoot_eng (f : Boot → Boot) : (s.modBoot f).eng = s.eng := rfl
@[simp] theorem State.modBoot_home (f : Boot → Boot) : (s.modBoot f).home = s.home := rfl
@[simp] theorem State.modBoot_mem (f : Boot → Boot) : (s.modBoot f).mem = s.mem := rfl
@[simp] theorem State.modBoot_ctl (f : Boot → Boot) : (s.modBoot f).ctl = s.ctl := rfl
@[simp] theorem State.modBoot_rel (f : Boot → Boot) : (s.modBoot f).rel = s.rel := rfl
@[simp] theorem State.modBoot_movers (f : Boot → Boot) : (s.modBoot f).movers = s.movers := rfl
@[simp] theorem State.modBoot_net (f : Boot → Boot) : (s.modBoot f).net = s.net := rfl
@[simp] theorem State.modBoot_wel (f : Boot → Boot) : (s.modBoot f).wel = s.wel := rfl
@[simp] theorem State.modBoot_boot (f : Boot → Boot) : (s.modBoot f).boot = f s.boot := rfl
@[simp] theorem State.modBoot_sys (f : Boot → Boot) : (s.modBoot f).sys = s.sys := rfl
@[simp] theorem State.modBoot_answer (f : Boot → Boot) : (s.modBoot f).answer = s.answer := rfl
@[simp] theorem State.modBoot_freeCtr (f : Boot → Boot) : (s.modBoot f).freeCtr = s.freeCtr := rfl
@[simp] theorem State.modBoot_pending (f : Boot → Boot) : (s.modBoot f).pending = s.pending := rfl
@[simp] theorem State.modBoot_cg (f : Boot → Boot) (i : Nat) : (s.modBoot f).cg i = s.cg i := rfl
@[simp] theorem State.modBoot_e (f : Boot → Boot) (i : Nat) : (s.modBoot f).e i = s.e i := rfl
@[simp] theorem State.modBoot_hl (f : Boot → Boot) (i : Nat) : (s.modBoot f).hl i = s.hl i := rfl
@[simp] theorem State.modBoot_port (f : Boot → Boot) (i : Nat) : (s.modBoot f).port i = s.port i := rfl
@[simp] theorem State.modBoot_mover (f : Boot → Boot) (i : Nat) : (s.modBoot f).mover i = s.mover i := rfl

/-! ### modOtp -/

@[simp] theorem State.modOtp_eng (f : Otp → Otp) : (s.modOtp f).eng = s.eng := by rw [State.modOtp, State.modBoot_eng]
@[simp] theorem State.modOtp_home (f : Otp → Otp) : (s.modOtp f).home = s.home := by rw [State.modOtp, State.modBoot_home]
@[simp] theorem State.modOtp_mem (f : Otp → Otp) : (s.modOtp f).mem = s.mem := by rw [State.modOtp, State.modBoot_mem]
@[simp] theorem State.modOtp_ctl (f : Otp → Otp) : (s.modOtp f).ctl = s.ctl := by rw [State.modOtp, State.modBoot_ctl]
@[simp] theorem State.modOtp_rel (f : Otp → Otp) : (s.modOtp f).rel = s.rel := by rw [State.modOtp, State.modBoot_rel]
@[simp] theorem State.modOtp_movers (f : Otp → Otp) : (s.modOtp f).movers = s.movers := by rw [State.modOtp, State.modBoot_movers]
@[simp] theorem State.modOtp_net (f : Otp → Otp) : (s.modOtp f).net = s.net := by rw [State.modOtp, State.modBoot_net]
@[simp] theorem State.modOtp_wel (f : Otp → Otp) : (s.modOtp f).wel = s.wel := by rw [State.modOtp, State.modBoot_wel]
@[simp] theorem State.modOtp_boot (f : Otp → Otp) : (s.modOtp f).boot = { s.boot with otp := f s.boot.otp } := rfl
@[simp] theorem State.modOtp_sys (f : Otp → Otp) : (s.modOtp f).sys = s.sys := by rw [State.modOtp, State.modBoot_sys]
@[simp] theorem State.modOtp_answer (f : Otp → Otp) : (s.modOtp f).answer = s.answer := by rw [State.modOtp, State.modBoot_answer]
@[simp] theorem State.modOtp_freeCtr (f : Otp → Otp) : (s.modOtp f).freeCtr = s.freeCtr := by rw [State.modOtp, State.modBoot_freeCtr]
@[simp] theorem State.modOtp_pending (f : Otp → Otp) : (s.modOtp f).pending = s.pending := by rw [State.modOtp, State.modBoot_pending]
@[simp] theorem State.modOtp_cg (f : Otp → Otp) (i : Nat) : (s.modOtp f).cg i = s.cg i := by rw [State.modOtp, State.modBoot_cg]
@[simp] theorem State.modOtp_e (f : Otp → Otp) (i : Nat) : (s.modOtp f).e i = s.e i := by rw [State.modOtp, State.modBoot_e]
@[simp] theorem State.modOtp_hl (f : Otp → Otp) (i : Nat) : (s.modOtp f).hl i = s.hl i := by rw [State.modOtp, State.modBoot_hl]
@[simp] theorem State.modOtp_port (f : Otp → Otp) (i : Nat) : (s.modOtp f).port i = s.port i := by rw [State.modOtp, State.modBoot_port]
@[simp] theorem State.modOtp_mover (f : Otp → Otp) (i : Nat) : (s.modOtp f).mover i = s.mover i := by rw [State.modOtp, State.modBoot_mover]

/-! ### modMover -/

@[simp] theorem State.modMover_eng (c : Nat) (f : Mover → Mover) : (s.modMover c f).eng = s.eng := rfl
@[simp] theorem State.modMover_home (c : Nat) (f : Mover → Mover) : (s.modMover c f).home = s.home := rfl
@[simp] theorem State.modMover_mem (c : Nat) (f : Mover → Mover) : (s.modMover c f).mem = s.mem := rfl
@[simp] theorem State.modMover_ctl (c : Nat) (f : Mover → Mover) : (s.modMover c f).ctl = s.ctl := rfl
@[simp] theorem State.modMover_rel (c : Nat) (f : Mover → Mover) : (s.modMover c f).rel = s.rel := rfl
@[simp] theorem State.modMover_net (c : Nat) (f : Mover → Mover) : (s.modMover c f).net = s.net := rfl
@[simp] theorem State.modMover_wel (c : Nat) (f : Mover → Mover) : (s.modMover c f).wel = s.wel := rfl
@[simp] theorem State.modMover_boot (c : Nat) (f : Mover → Mover) : (s.modMover c f).boot = s.boot := rfl
@[simp] theorem State.modMover_sys (c : Nat) (f : Mover → Mover) : (s.modMover c f).sys = s.sys := rfl
@[simp] theorem State.modMover_answer (c : Nat) (f : Mover → Mover) : (s.modMover c f).answer = s.answer := rfl
@[simp] theorem State.modMover_freeCtr (c : Nat) (f : Mover → Mover) : (s.modMover c f).freeCtr = s.freeCtr := rfl
@[simp] theorem State.modMover_pending (c : Nat) (f : Mover → Mover) : (s.modMover c f).pending = s.pending := rfl
@[simp] theorem State.modMover_cg (c : Nat) (f : Mover → Mover) (i : Nat) : (s.modMover c f).cg i = s.cg i := rfl
@[simp] theorem State.modMover_e (c : Nat) (f : Mover → Mover) (i : Nat) : (s.modMover c f).e i = s.e i := rfl
@[simp] theorem State.modMover_hl (c : Nat) (f : Mover → Mover) (i : Nat) : (s.modMover c f).hl i = s.hl i := rfl
@[simp] theorem State.modMover_port (c : Nat) (f : Mover → Mover) (i : Nat) : (s.modMover c f).port i = s.port i := rfl

/-! ### modPort -/

@[simp] theorem State.modPort_eng (p : Nat) (f : Port → Port) : (s.modPort p f).eng = s.eng := by rw [State.modPort, State.modNet_eng]
@[simp] theorem State.modPort_home (p : Nat) (f : Port → Port) : (s.modPort p f).home = s.home := by rw [State.modPort, State.modNet_home]
@[simp] theorem State.modPort_mem (p : Nat) (f : Port → Port) : (s.modPort p f).mem = s.mem := by rw [State.modPort, State.modNet_mem]
@[simp] theorem State.modPort_ctl (p : Nat) (f : Port → Port) : (s.modPort p f).ctl = s.ctl := by rw [State.modPort, State.modNet_ctl]
@[simp] theorem State.modPort_rel (p : Nat) (f : Port → Port) : (s.modPort p f).rel = s.rel := by rw [State.modPort, State.modNet_rel]
@[simp] theorem State.modPort_movers (p : Nat) (f : Port → Port) : (s.modPort p f).movers = s.movers := by rw [State.modPort, State.modNet_movers]
@[simp] theorem State.modPort_wel (p : Nat) (f : Port → Port) : (s.modPort p f).wel = s.wel := by rw [State.modPort, State.modNet_wel]
@[simp] theorem State.modPort_boot (p : Nat) (f : Port → Port) : (s.modPort p f).boot = s.boot := by rw [State.modPort, State.modNet_boot]
@[simp] theorem State.modPort_sys (p : Nat) (f : Port → Port) : (s.modPort p f).sys = s.sys := by rw [State.modPort, State.modNet_sys]
@[simp] theorem State.modPort_answer (p : Nat) (f : Port → Port) : (s.modPort p f).answer = s.answer := by rw [State.modPort, State.modNet_answer]
@[simp] theorem State.modPort_freeCtr (p : Nat) (f : Port → Port) : (s.modPort p f).freeCtr = s.freeCtr := by rw [State.modPort, State.modNet_freeCtr]
@[simp] theorem State.modPort_pending (p : Nat) (f : Port → Port) : (s.modPort p f).pending = s.pending := by rw [State.modPort, State.modNet_pending]
@[simp] theorem State.modPort_cg (p : Nat) (f : Port → Port) (i : Nat) : (s.modPort p f).cg i = s.cg i := by rw [State.modPort, State.modNet_cg]
@[simp] theorem State.modPort_e (p : Nat) (f : Port → Port) (i : Nat) : (s.modPort p f).e i = s.e i := by rw [State.modPort, State.modNet_e]
@[simp] theorem State.modPort_hl (p : Nat) (f : Port → Port) (i : Nat) : (s.modPort p f).hl i = s.hl i := by rw [State.modPort, State.modNet_hl]
@[simp] theorem State.modPort_mover (p : Nat) (f : Port → Port) (i : Nat) : (s.modPort p f).mover i = s.mover i := by rw [State.modPort, State.modNet_mover]

/-! ### setDeque -/

@[simp] theorem State.setDeque_eng (e : Nat) (l : List Entry) : (s.setDeque e l).eng = s.eng := by rw [State.setDeque, State.modRel_eng]
@[simp] theorem State.setDeque_home (e : Nat) (l : List Entry) : (s.setDeque e l).home = s.home := by rw [State.setDeque, State.modRel_home]
@[simp] theorem State.setDeque_mem (e : Nat) (l : List Entry) : (s.setDeque e l).mem = s.mem := by rw [State.setDeque, State.modRel_mem]
@[simp] theorem State.setDeque_ctl (e : Nat) (l : List Entry) : (s.setDeque e l).ctl = s.ctl := by rw [State.setDeque, State.modRel_ctl]
@[simp] theorem State.setDeque_movers (e : Nat) (l : List Entry) : (s.setDeque e l).movers = s.movers := by rw [State.setDeque, State.modRel_movers]
@[simp] theorem State.setDeque_net (e : Nat) (l : List Entry) : (s.setDeque e l).net = s.net := by rw [State.setDeque, State.modRel_net]
@[simp] theorem State.setDeque_wel (e : Nat) (l : List Entry) : (s.setDeque e l).wel = s.wel := by rw [State.setDeque, State.modRel_wel]
@[simp] theorem State.setDeque_boot (e : Nat) (l : List Entry) : (s.setDeque e l).boot = s.boot := by rw [State.setDeque, State.modRel_boot]
@[simp] theorem State.setDeque_sys (e : Nat) (l : List Entry) : (s.setDeque e l).sys = s.sys := by rw [State.setDeque, State.modRel_sys]
@[simp] theorem State.setDeque_answer (e : Nat) (l : List Entry) : (s.setDeque e l).answer = s.answer := by rw [State.setDeque, State.modRel_answer]
@[simp] theorem State.setDeque_freeCtr (e : Nat) (l : List Entry) : (s.setDeque e l).freeCtr = s.freeCtr := by rw [State.setDeque, State.modRel_freeCtr]
@[simp] theorem State.setDeque_pending (e : Nat) (l : List Entry) : (s.setDeque e l).pending = s.pending := by rw [State.setDeque, State.modRel_pending]
@[simp] theorem State.setDeque_cg (e : Nat) (l : List Entry) (i : Nat) : (s.setDeque e l).cg i = s.cg i := by rw [State.setDeque, State.modRel_cg]
@[simp] theorem State.setDeque_e (e : Nat) (l : List Entry) (i : Nat) : (s.setDeque e l).e i = s.e i := by rw [State.setDeque, State.modRel_e]
@[simp] theorem State.setDeque_hl (e : Nat) (l : List Entry) (i : Nat) : (s.setDeque e l).hl i = s.hl i := by rw [State.setDeque, State.modRel_hl]
@[simp] theorem State.setDeque_port (e : Nat) (l : List Entry) (i : Nat) : (s.setDeque e l).port i = s.port i := by rw [State.setDeque, State.modRel_port]
@[simp] theorem State.setDeque_mover (e : Nat) (l : List Entry) (i : Nat) : (s.setDeque e l).mover i = s.mover i := by rw [State.setDeque, State.modRel_mover]

/-! ### setOverflow -/

@[simp] theorem State.setOverflow_eng (e : Nat) (l : List Entry) : (s.setOverflow e l).eng = s.eng := by rw [State.setOverflow, State.modRel_eng]
@[simp] theorem State.setOverflow_home (e : Nat) (l : List Entry) : (s.setOverflow e l).home = s.home := by rw [State.setOverflow, State.modRel_home]
@[simp] theorem State.setOverflow_mem (e : Nat) (l : List Entry) : (s.setOverflow e l).mem = s.mem := by rw [State.setOverflow, State.modRel_mem]
@[simp] theorem State.setOverflow_ctl (e : Nat) (l : List Entry) : (s.setOverflow e l).ctl = s.ctl := by rw [State.setOverflow, State.modRel_ctl]
@[simp] theorem State.setOverflow_movers (e : Nat) (l : List Entry) : (s.setOverflow e l).movers = s.movers := by rw [State.setOverflow, State.modRel_movers]
@[simp] theorem State.setOverflow_net (e : Nat) (l : List Entry) : (s.setOverflow e l).net = s.net := by rw [State.setOverflow, State.modRel_net]
@[simp] theorem State.setOverflow_wel (e : Nat) (l : List Entry) : (s.setOverflow e l).wel = s.wel := by rw [State.setOverflow, State.modRel_wel]
@[simp] theorem State.setOverflow_boot (e : Nat) (l : List Entry) : (s.setOverflow e l).boot = s.boot := by rw [State.setOverflow, State.modRel_boot]
@[simp] theorem State.setOverflow_sys (e : Nat) (l : List Entry) : (s.setOverflow e l).sys = s.sys := by rw [State.setOverflow, State.modRel_sys]
@[simp] theorem State.setOverflow_answer (e : Nat) (l : List Entry) : (s.setOverflow e l).answer = s.answer := by rw [State.setOverflow, State.modRel_answer]
@[simp] theorem State.setOverflow_freeCtr (e : Nat) (l : List Entry) : (s.setOverflow e l).freeCtr = s.freeCtr := by rw [State.setOverflow, State.modRel_freeCtr]
@[simp] theorem State.setOverflow_pending (e : Nat) (l : List Entry) : (s.setOverflow e l).pending = s.pending := by rw [State.setOverflow, State.modRel_pending]
@[simp] theorem State.setOverflow_cg (e : Nat) (l : List Entry) (i : Nat) : (s.setOverflow e l).cg i = s.cg i := by rw [State.setOverflow, State.modRel_cg]
@[simp] theorem State.setOverflow_e (e : Nat) (l : List Entry) (i : Nat) : (s.setOverflow e l).e i = s.e i := by rw [State.setOverflow, State.modRel_e]
@[simp] theorem State.setOverflow_hl (e : Nat) (l : List Entry) (i : Nat) : (s.setOverflow e l).hl i = s.hl i := by rw [State.setOverflow, State.modRel_hl]
@[simp] theorem State.setOverflow_port (e : Nat) (l : List Entry) (i : Nat) : (s.setOverflow e l).port i = s.port i := by rw [State.setOverflow, State.modRel_port]
@[simp] theorem State.setOverflow_mover (e : Nat) (l : List Entry) (i : Nat) : (s.setOverflow e l).mover i = s.mover i := by rw [State.setOverflow, State.modRel_mover]

/-! ### setHl -/

@[simp] theorem State.setHl_eng (l : Nat) (x : Option HLine) : (s.setHl l x).eng = s.eng := by rw [State.setHl, State.modHome_eng]
@[simp] theorem State.setHl_mem (l : Nat) (x : Option HLine) : (s.setHl l x).mem = s.mem := by rw [State.setHl, State.modHome_mem]
@[simp] theorem State.setHl_ctl (l : Nat) (x : Option HLine) : (s.setHl l x).ctl = s.ctl := by rw [State.setHl, State.modHome_ctl]
@[simp] theorem State.setHl_rel (l : Nat) (x : Option HLine) : (s.setHl l x).rel = s.rel := by rw [State.setHl, State.modHome_rel]
@[simp] theorem State.setHl_movers (l : Nat) (x : Option HLine) : (s.setHl l x).movers = s.movers := by rw [State.setHl, State.modHome_movers]
@[simp] theorem State.setHl_net (l : Nat) (x : Option HLine) : (s.setHl l x).net = s.net := by rw [State.setHl, State.modHome_net]
@[simp] theorem State.setHl_wel (l : Nat) (x : Option HLine) : (s.setHl l x).wel = s.wel := by rw [State.setHl, State.modHome_wel]
@[simp] theorem State.setHl_boot (l : Nat) (x : Option HLine) : (s.setHl l x).boot = s.boot := by rw [State.setHl, State.modHome_boot]
@[simp] theorem State.setHl_sys (l : Nat) (x : Option HLine) : (s.setHl l x).sys = s.sys := by rw [State.setHl, State.modHome_sys]
@[simp] theorem State.setHl_answer (l : Nat) (x : Option HLine) : (s.setHl l x).answer = s.answer := by rw [State.setHl, State.modHome_answer]
@[simp] theorem State.setHl_freeCtr (l : Nat) (x : Option HLine) : (s.setHl l x).freeCtr = s.freeCtr := by rw [State.setHl, State.modHome_freeCtr]
@[simp] theorem State.setHl_pending (l : Nat) (x : Option HLine) : (s.setHl l x).pending = s.pending := by rw [State.setHl, State.modHome_pending]
@[simp] theorem State.setHl_cg (l : Nat) (x : Option HLine) (i : Nat) : (s.setHl l x).cg i = s.cg i := by rw [State.setHl, State.modHome_cg]
@[simp] theorem State.setHl_e (l : Nat) (x : Option HLine) (i : Nat) : (s.setHl l x).e i = s.e i := by rw [State.setHl, State.modHome_e]
@[simp] theorem State.setHl_port (l : Nat) (x : Option HLine) (i : Nat) : (s.setHl l x).port i = s.port i := by rw [State.setHl, State.modHome_port]
@[simp] theorem State.setHl_mover (l : Nat) (x : Option HLine) (i : Nat) : (s.setHl l x).mover i = s.mover i := by rw [State.setHl, State.modHome_mover]

/-! ### modHl -/

@[simp] theorem State.modHl_eng (l : Nat) (f : HLine → HLine) : (s.modHl l f).eng = s.eng := by rw [State.modHl, State.setHl_eng]
@[simp] theorem State.modHl_mem (l : Nat) (f : HLine → HLine) : (s.modHl l f).mem = s.mem := by rw [State.modHl, State.setHl_mem]
@[simp] theorem State.modHl_ctl (l : Nat) (f : HLine → HLine) : (s.modHl l f).ctl = s.ctl := by rw [State.modHl, State.setHl_ctl]
@[simp] theorem State.modHl_rel (l : Nat) (f : HLine → HLine) : (s.modHl l f).rel = s.rel := by rw [State.modHl, State.setHl_rel]
@[simp] theorem State.modHl_movers (l : Nat) (f : HLine → HLine) : (s.modHl l f).movers = s.movers := by rw [State.modHl, State.setHl_movers]
@[simp] theorem State.modHl_net (l : Nat) (f : HLine → HLine) : (s.modHl l f).net = s.net := by rw [State.modHl, State.setHl_net]
@[simp] theorem State.modHl_wel (l : Nat) (f : HLine → HLine) : (s.modHl l f).wel = s.wel := by rw [State.modHl, State.setHl_wel]
@[simp] theorem State.modHl_boot (l : Nat) (f : HLine → HLine) : (s.modHl l f).boot = s.boot := by rw [State.modHl, State.setHl_boot]
@[simp] theorem State.modHl_sys (l : Nat) (f : HLine → HLine) : (s.modHl l f).sys = s.sys := by rw [State.modHl, State.setHl_sys]
@[simp] theorem State.modHl_answer (l : Nat) (f : HLine → HLine) : (s.modHl l f).answer = s.answer := by rw [State.modHl, State.setHl_answer]
@[simp] theorem State.modHl_freeCtr (l : Nat) (f : HLine → HLine) : (s.modHl l f).freeCtr = s.freeCtr := by rw [State.modHl, State.setHl_freeCtr]
@[simp] theorem State.modHl_pending (l : Nat) (f : HLine → HLine) : (s.modHl l f).pending = s.pending := by rw [State.modHl, State.setHl_pending]
@[simp] theorem State.modHl_cg (l : Nat) (f : HLine → HLine) (i : Nat) : (s.modHl l f).cg i = s.cg i := by rw [State.modHl, State.setHl_cg]
@[simp] theorem State.modHl_e (l : Nat) (f : HLine → HLine) (i : Nat) : (s.modHl l f).e i = s.e i := by rw [State.modHl, State.setHl_e]
@[simp] theorem State.modHl_port (l : Nat) (f : HLine → HLine) (i : Nat) : (s.modHl l f).port i = s.port i := by rw [State.modHl, State.setHl_port]
@[simp] theorem State.modHl_mover (l : Nat) (f : HLine → HLine) (i : Nat) : (s.modHl l f).mover i = s.mover i := by rw [State.modHl, State.setHl_mover]

/-! ### Reads after writes -/

@[simp] theorem State.setE_e_same (n : Nat) (g : Engine) : (s.setE n g).e n = g := by simp [State.e]
@[simp] theorem State.setE_e_ne {n m : Nat} (g : Engine) (h : n ≠ m) : (s.setE n g).e m = s.e m := by simp [State.e, h]
@[simp] theorem State.modE_e_same (n : Nat) (f : Engine → Engine) : (s.modE n f).e n = f (s.e n) := by simp [State.modE]
@[simp] theorem State.modE_e_ne {n m : Nat} (f : Engine → Engine) (h : n ≠ m) : (s.modE n f).e m = s.e m := by
  simp [State.modE, h]
@[simp] theorem State.cs_cg_same (off : Nat) (w : Word) : (s.cs off w).cg off = w := by simp [State.cg]
@[simp] theorem State.cs_cg_ne {off i : Nat} (w : Word) (h : off ≠ i) : (s.cs off w).cg i = s.cg i := by
  simp only [State.cg, State.cs_ctl]
  unfold tset
  split
  · exact tget_tdel_ne _ _ h
  · exact tget_tput_ne _ _ _ h
@[simp] theorem State.csf_cg_same (off a b v : Nat) : (s.csf off a b v).cg off = setFld (s.cg off) a b v := by
  simp [State.csf]
@[simp] theorem State.csf_cg_ne {off i : Nat} (a b v : Nat) (h : off ≠ i) : (s.csf off a b v).cg i = s.cg i := by
  simp [State.csf, h]
@[simp] theorem State.setHl_hl_same (l : Nat) (x : Option HLine) : (s.setHl l x).hl l = x := by
  simp [State.hl, State.setHl]
@[simp] theorem State.setHl_hl_ne {l m : Nat} (x : Option HLine) (h : l ≠ m) : (s.setHl l x).hl m = s.hl m := by
  simp [State.hl, State.setHl, h]
@[simp] theorem State.modPort_port_same (p : Nat) (f : Port → Port) : (s.modPort p f).port p = f (s.port p) := by
  simp [State.port, State.modPort]
@[simp] theorem State.modPort_port_ne {p q : Nat} (f : Port → Port) (h : p ≠ q) : (s.modPort p f).port q = s.port q := by
  simp [State.port, State.modPort, h]
@[simp] theorem State.modMover_mover_same (c : Nat) (f : Mover → Mover) : (s.modMover c f).mover c = f (s.mover c) := by
  simp [State.mover, State.modMover]
@[simp] theorem State.modMover_mover_ne {c d : Nat} (f : Mover → Mover) (h : c ≠ d) :
    (s.modMover c f).mover d = s.mover d := by simp [State.mover, State.modMover, h]

/-! ### The parts of an engine -/

variable (g : Engine)

@[simp] theorem Engine.modRegs_regs (f : Regs → Regs) : (g.modRegs f).regs = f g.regs := rfl
@[simp] theorem Engine.modRegs_eff (f : Regs → Regs) : (g.modRegs f).eff = g.eff := rfl
@[simp] theorem Engine.modRegs_pipe (f : Regs → Regs) : (g.modRegs f).pipe = g.pipe := rfl
@[simp] theorem Engine.modRegs_mem (f : Regs → Regs) : (g.modRegs f).mem = g.mem := rfl
@[simp] theorem Engine.modRegs_run (f : Regs → Regs) : (g.modRegs f).run = g.run := rfl
@[simp] theorem Engine.modRegs_cstore (f : Regs → Regs) : (g.modRegs f).cstore = g.cstore := rfl
@[simp] theorem Engine.modPipe_regs (f : Pipe → Pipe) : (g.modPipe f).regs = g.regs := rfl
@[simp] theorem Engine.modPipe_eff (f : Pipe → Pipe) : (g.modPipe f).eff = g.eff := rfl
@[simp] theorem Engine.modPipe_pipe (f : Pipe → Pipe) : (g.modPipe f).pipe = f g.pipe := rfl
@[simp] theorem Engine.modPipe_mem (f : Pipe → Pipe) : (g.modPipe f).mem = g.mem := rfl
@[simp] theorem Engine.modPipe_run (f : Pipe → Pipe) : (g.modPipe f).run = g.run := rfl
@[simp] theorem Engine.modPipe_cstore (f : Pipe → Pipe) : (g.modPipe f).cstore = g.cstore := rfl
@[simp] theorem Engine.modMem_regs (f : EMem → EMem) : (g.modMem f).regs = g.regs := rfl
@[simp] theorem Engine.modMem_eff (f : EMem → EMem) : (g.modMem f).eff = g.eff := rfl
@[simp] theorem Engine.modMem_pipe (f : EMem → EMem) : (g.modMem f).pipe = g.pipe := rfl
@[simp] theorem Engine.modMem_mem (f : EMem → EMem) : (g.modMem f).mem = f g.mem := rfl
@[simp] theorem Engine.modMem_run (f : EMem → EMem) : (g.modMem f).run = g.run := rfl
@[simp] theorem Engine.modMem_cstore (f : EMem → EMem) : (g.modMem f).cstore = g.cstore := rfl
@[simp] theorem Engine.modRun_regs (f : ERun → ERun) : (g.modRun f).regs = g.regs := rfl
@[simp] theorem Engine.modRun_eff (f : ERun → ERun) : (g.modRun f).eff = g.eff := rfl
@[simp] theorem Engine.modRun_pipe (f : ERun → ERun) : (g.modRun f).pipe = g.pipe := rfl
@[simp] theorem Engine.modRun_mem (f : ERun → ERun) : (g.modRun f).mem = g.mem := rfl
@[simp] theorem Engine.modRun_run (f : ERun → ERun) : (g.modRun f).run = f g.run := rfl
@[simp] theorem Engine.modRun_cstore (f : ERun → ERun) : (g.modRun f).cstore = g.cstore := rfl
@[simp] theorem Engine.wr_eff (d : Dst) (v : Word) : (g.wr d v).eff = g.eff := by cases d <;> rfl
@[simp] theorem Engine.wr_pipe (d : Dst) (v : Word) : (g.wr d v).pipe = g.pipe := by cases d <;> rfl
@[simp] theorem Engine.wr_mem (d : Dst) (v : Word) : (g.wr d v).mem = g.mem := by cases d <;> rfl
@[simp] theorem Engine.wr_run (d : Dst) (v : Word) : (g.wr d v).run = g.run := by cases d <;> rfl
@[simp] theorem Engine.wr_cstore (d : Dst) (v : Word) : (g.wr d v).cstore = g.cstore := by cases d <;> rfl
@[simp] theorem Engine.post_regs (p : Pend) : (g.post p).regs = g.regs := rfl
@[simp] theorem Engine.post_eff (p : Pend) : (g.post p).eff = g.eff := rfl
@[simp] theorem Engine.post_mem (p : Pend) : (g.post p).mem = g.mem := rfl
@[simp] theorem Engine.post_run (p : Pend) : (g.post p).run = g.run := rfl
@[simp] theorem Engine.post_cstore (p : Pend) : (g.post p).cstore = g.cstore := rfl

/-! ### Reads of registers after a result lands -/

@[simp] theorem Engine.wr_w_same (n : Nat) (v : Word) : (g.wr (.w n) v).w n = v := by simp [Engine.w, Engine.wr]
@[simp] theorem Engine.wr_w_ne {n m : Nat} (v : Word) (h : n ≠ m) : (g.wr (.w n) v).w m = g.w m := by
  simp [Engine.w, Engine.wr, h]
@[simp] theorem Engine.wr_st_w (v : Word) (m : Nat) : (g.wr .st v).w m = g.w m := rfl
@[simp] theorem Engine.wr_w_st (n : Nat) (v : Word) : (g.wr (.w n) v).regs.st = g.regs.st := rfl
@[simp] theorem Engine.wr_st_st (v : Word) : (g.wr .st v).regs.st = v := rfl
@[simp] theorem Engine.wr_pc (d : Dst) (v : Word) : (g.wr d v).regs.pc = g.regs.pc := by cases d <;> rfl
@[simp] theorem Engine.rd_wr_same (d : Dst) (v : Word) : (g.wr d v).rd d = v := by
  cases d <;> simp [Engine.rd, Engine.wr, Engine.w]

/-! ### The control window in canonical form -/

/-- A write of the control window keeps its canonical form. -/
theorem State.cs_wf (h : trising none s.ctl = true ∧ s.ctl.all (fun p => decide (p.2 ≠ ctlReset p.1)) = true)
    (off : Nat) (w : Word) :
    trising none (s.cs off w).ctl = true ∧ (s.cs off w).ctl.all (fun p => decide (p.2 ≠ ctlReset p.1)) = true := by
  obtain ⟨h1, h2⟩ := h
  simp only [List.all_eq_true, decide_eq_true_eq] at h2 ⊢
  simp only [State.cs_ctl]
  unfold tset
  split
  · exact ⟨trising_tdel off h1, fun p hp => h2 p (mem_tdel hp)⟩
  · rename_i hv
    refine ⟨trising_tput off w h1 (by simp), fun p hp => ?_⟩
    rcases mem_tput hp with rfl | hp
    · exact hv
    · exact h2 p hp

end Sys2Proof.Machine
end

