-- ==== Sys2Proof/Laws/Ops.lean ====
section
/-! SUPPORT. What each shared operation on an engine can do: counters, cycles, landing, the program counter, the end of an
instruction. Each lemma says once what its operation leaves and what it changes. -/

namespace Sys2Proof.Machine

variable (e : Nat) (s : State)

/-! ### Which fields of the state an operation leaves -/

theorem OutsideSame.refl : OutsideSame s s := ⟨rfl, rfl, rfl, rfl, rfl, rfl, rfl, rfl, rfl, rfl, rfl⟩

theorem OutsideSame.trans {s t u : State} (a : OutsideSame s t) (b : OutsideSame t u) : OutsideSame s u :=
  ⟨b.home.trans a.home, b.mem.trans a.mem, b.rel.trans a.rel, b.movers.trans a.movers, b.net.trans a.net,
   b.wel.trans a.wel, b.boot.trans a.boot, b.sys.trans a.sys, b.answer.trans a.answer, b.freeCtr.trans a.freeCtr,
   b.pending.trans a.pending⟩

theorem OnlyEngine.refl : OnlyEngine e s s := ⟨.refl s, fun _ _ => rfl, fun _ _ => rfl⟩

theorem OnlyEngine.trans {e : Nat} {s t u : State} (a : OnlyEngine e s t) (b : OnlyEngine e t u) : OnlyEngine e s u :=
  ⟨a.out.trans b.out, fun m h => (b.others m h).trans (a.others m h), fun off h => (b.ctl off h).trans (a.ctl off h)⟩

theorem modE_only (f : Engine → Engine) : OnlyEngine e s (s.modE e f) :=
  ⟨⟨rfl, rfl, rfl, rfl, rfl, rfl, rfl, rfl, rfl, rfl, rfl⟩, fun _ h => State.modE_e_ne s f (Ne.symm h), fun _ _ => rfl⟩

/-! ### Counters and cycles (R209, R212, R213) -/

theorem cs_only {off : Nat} (w : Word) (h : rPerf e ≤ off ∧ off < rPerf e + 0o40) : OnlyEngine e s (s.cs off w) := by
  refine ⟨⟨rfl, rfl, rfl, rfl, rfl, rfl, rfl, rfl, rfl, rfl, rfl⟩, fun _ _ => rfl, fun i hi => ?_⟩
  apply State.cs_cg_ne
  rintro rfl
  exact hi h

theorem countIf_only (adm : Bool) {k : Nat} (h : k + 1 < 0o40) (n : Nat) : OnlyEngine e s (countIf adm e k n s) := by
  unfold countIf
  split
  · rw [State.cadd2, State.cs2]
    exact (cs_only e s _ ⟨by omega, by omega⟩).trans (cs_only e _ _ ⟨by omega, by omega⟩)
  · exact .refl e s

theorem count_only {k : Nat} (h : k + 1 < 0o40) (n : Nat) : OnlyEngine e s (count e k n s) := countIf_only e s _ h n

@[simp] theorem countIf_e (adm : Bool) (k n m : Nat) : (countIf adm e k n s).e m = s.e m := by
  unfold countIf; split <;> simp
@[simp] theorem count_e (k n m : Nat) : (count e k n s).e m = s.e m := countIf_e e s _ k n m

@[simp] theorem count_zero (k : Nat) : count e k 0 s = s := by simp [count, countIf]

theorem cycles_only (n : Nat) : OnlyEngine e s (cycles e n s) := by unfold cycles; exact modE_only e s _

theorem fixed_only (n : Nat) : OnlyEngine e s (fixed e n s) := by
  unfold fixed
  exact ((cycles_only e s n).trans ((count_only e _ (k := cPCYC) (by decide) n).trans
    (count_only e _ (k := cPISS) (by decide) n))).trans (modE_only e _ _)

theorem measured_only {k : Nat} (h : k + 1 < 0o40) (n : Nat) : OnlyEngine e s (measured e k n s) :=
  (cycles_only e s n).trans ((count_only e _ (k := cPCYC) (by decide) n).trans (count_only e _ h n))

/-- What n fixed cycles do to the engine: its clocks, and the charge. -/
theorem fixed_e (n : Nat) : (fixed e n s).e e =
    (let g := (s.e e).modPipe fun p => { p with cyc := p.cyc + n, clk := p.clk + n }
     if (s.e e).act then g.modRun fun r => { r with use := r.use + n * ticksPerCycle s } else g) := by
  simp only [fixed, State.modE_e_same, count_e, cycles]
  split <;> rename_i h <;> simp [Engine.act, Engine.modPipe, Engine.modRun] at h ⊢ <;> simp [h]

@[simp] theorem fixed_regs (n : Nat) : ((fixed e n s).e e).regs = (s.e e).regs := by
  rw [fixed_e]; dsimp only; split <;> rfl
@[simp] theorem fixed_mem (n : Nat) : ((fixed e n s).e e).mem = (s.e e).mem := by
  rw [fixed_e]; dsimp only; split <;> rfl
@[simp] theorem fixed_eff (n : Nat) : ((fixed e n s).e e).eff = (s.e e).eff := by
  rw [fixed_e]; dsimp only; split <;> rfl
@[simp] theorem fixed_cstore (n : Nat) : ((fixed e n s).e e).cstore = (s.e e).cstore := by
  rw [fixed_e]; dsimp only; split <;> rfl
theorem fixed_pipe (n : Nat) : ((fixed e n s).e e).pipe =
    { (s.e e).pipe with cyc := (s.e e).pipe.cyc + n, clk := (s.e e).pipe.clk + n } := by
  rw [fixed_e]; dsimp only; split <;> rfl
theorem fixed_run (n : Nat) : ((fixed e n s).e e).run =
    if (s.e e).act then { (s.e e).run with use := (s.e e).run.use + n * ticksPerCycle s } else (s.e e).run := by
  rw [fixed_e]; dsimp only; split <;> rfl

/-! ### Results that have not landed -/

theorem landList_nil (t : Nat) (g : Engine) : landList t [] g = (g, []) := rfl

/-- When everything is due, everything lands in order. -/
theorem landList_all (t : Nat) (ps : List Pend) (g : Engine) (h : ∀ p ∈ ps, p.at_ ≤ t) :
    landList t ps g = (ps.foldl Engine.land g, []) := by
  induction ps generalizing g with
  | nil => rfl
  | cons p ps ih =>
    have hp := h p (by simp)
    simp only [landList, hp, if_true, List.foldl_cons]
    exact ih _ fun q hq => h q (by simp [hq])

/-- Landing with nothing outstanding changes nothing. -/
theorem landUpTo_empty {g : Engine} (h : g.pipe.pend = []) (t : Nat) : g.landUpTo t = g := by
  have : ∀ p : Pipe, p.pend = [] → { p with pend := [] } = p := by rintro ⟨⟩ h; cases h; rfl
  simp [Engine.landUpTo, h, landList, Engine.modPipe, this g.pipe h]

theorem land_pipe_of {g : Engine} {p : Pend} (h : p.fault = none) : (g.land p).pipe = g.pipe := by
  simp [Engine.land, h]

theorem landNow_only : OnlyEngine e s (landNow e s) := modE_only e s _
theorem waitTo_only (t : Nat) : OnlyEngine e s (waitTo e t s) := (fixed_only e s _).trans (landNow_only e _)
theorem setPc_only (pc : Nat) : OnlyEngine e s (setPc e pc s) := modE_only e s _
theorem detect_only (x : Exc) : OnlyEngine e s (detect e x s) := modE_only e s _
theorem stallAt_only (x : Bool) (i : Instr) (w : Wait) : OnlyEngine e s (stallAt x e i w s) := modE_only e s _
theorem stallOn_only (i : Instr) (w : Wait) : OnlyEngine e s (stallOn e i w s) := stallAt_only e s true i w
theorem redirect_only : OnlyEngine e s (redirect e s) := modE_only e s _
theorem haltDue_only (c u : Nat) : OnlyEngine e s (haltDue e c u s) := modE_only e s _
theorem slotLink_only (n : Nat) : OnlyEngine e s (slotLink e n s) := modE_only e s _
theorem preciseFault_only (v c g : Nat) (o : Word) : OnlyEngine e s (preciseFault e v c g o s) := by
  unfold preciseFault; dsimp only; split <;> exact detect_only e s _
theorem illegal_only (c : Nat) : OnlyEngine e s (illegal e c s) := preciseFault_only e s _ _ _ _

/-- A fault of an instruction that stands in no delay slot is detected with its own address as the return point. -/
theorem preciseFault_exc (v c sg : Nat) (o : Word) (h : (s.e e).pipe.slot = none) :
    ((preciseFault e v c sg o s).e e).pipe.exc = some { vec := v, cause := c, seg := sg, off := o, ret := (s.e e).regs.pc, ds := false } := by
  simp [preciseFault, h, detect, Engine.modPipe]

/-- A detected fault changes no register. -/
@[simp] theorem preciseFault_regs (v c sg : Nat) (o : Word) : ((preciseFault e v c sg o s).e e).regs = (s.e e).regs := by
  unfold preciseFault; dsimp only; split <;> simp [detect]

@[simp] theorem setPc_e_regs (pc : Nat) : ((setPc e pc s).e e).regs = { (s.e e).regs with pc := pc % pcMod } := by
  simp [setPc]
@[simp] theorem setPc_e_pipe (pc : Nat) : ((setPc e pc s).e e).pipe = (s.e e).pipe := by simp [setPc]
@[simp] theorem setPc_e_run (pc : Nat) : ((setPc e pc s).e e).run = (s.e e).run := by simp [setPc]
@[simp] theorem setPc_e_mem (pc : Nat) : ((setPc e pc s).e e).mem = (s.e e).mem := by simp [setPc]
@[simp] theorem setPc_e_eff (pc : Nat) : ((setPc e pc s).e e).eff = (s.e e).eff := by simp [setPc]

/-- The end of a step of an engine that single stepping does not hold. -/
theorem stepEnd_only (q : Iss) : OnlyEngine q.e s (stepEnd q s) := by
  have h1 : OnlyEngine q.e s (s.modE q.e fun g => g.modRun fun r => { r with bpSkip := false }) := modE_only q.e s _
  unfold stepEnd
  dsimp only
  split
  · exact h1
  · split
    · exact h1
    · exact h1.trans (haltDue_only q.e _ _ _)
  · split <;> split
    all_goals first | exact h1.trans (haltDue_only q.e _ _ _) | exact h1.trans (modE_only q.e _ _)

/-- What the end of an instruction can change. -/
theorem finish_only (adm : Bool) (q : Iss) : OnlyEngine q.e s (finish adm q s) := by
  unfold finish
  dsimp only
  split
  · exact .refl q.e s
  · refine .trans ?_ (stepEnd_only _ q)
    refine .trans ?_ (landNow_only q.e _)
    have hA : OnlyEngine q.e s (countIf adm q.e cPINS 1 s) := countIf_only q.e s adm (by decide) 1
    generalize countIf adm q.e cPINS 1 s = s1 at hA ⊢
    have hB : ∀ s2, OnlyEngine q.e s s2 → OnlyEngine q.e s (match (s.e q.e).pipe.slot with
        | some sl => if q.branch = true then s2 else
          let s := match sl.target with
            | some t => setPc q.e t s2
            | none => s2
          let s := if (sl.target.isSome || decide (0 < sl.bubble)) = true then redirect q.e s else s
          fixed q.e sl.bubble (s.modE q.e fun g => g.modPipe fun p => { p with slot := none })
        | none => s2) := by
      intro s2 h2
      split
      · split
        · exact h2
        · refine .trans ?_ (fixed_only q.e _ _)
          refine .trans ?_ (modE_only q.e _ _)
          have hC : ∀ b : Bool, ∀ s3, OnlyEngine q.e s s3 →
              OnlyEngine q.e s (if b = true then redirect q.e s3 else s3) := by
            intro b s3 h3
            cases b
            · exact h3
            · exact h3.trans (redirect_only q.e _)
          apply hC
          split
          · exact h2.trans (setPc_only q.e _ _)
          · exact h2
      · exact h2
    apply hB
    split
    · split
      · exact hA.trans ((modE_only q.e _ _).trans ((modE_only q.e _ _).trans (setPc_only q.e _ _)))
      · exact hA.trans (modE_only q.e _ _)
    · split
      · exact hA.trans (setPc_only q.e _ _)
      · exact hA

end Sys2Proof.Machine
end

