-- ==== Sys2Proof/Laws/Issue.lean ====
section
/-! SUPPORT. What issue does: on an engine that is ready it carries out the body and ends the instruction. -/

namespace Sys2Proof.Machine

/-! ### What depends on parts of an engine alone -/

theorem boundaryExc_congr {s t : State} {e : Nat} (hr : (t.e e).regs = (s.e e).regs) (hp : (t.e e).pipe = (s.e e).pipe)
    (hu : (t.e e).run = (s.e e).run) (hc : t.ctl = s.ctl) : boundaryExc t e = boundaryExc s e := by
  have hcb : ∀ o i, t.cb o i = s.cb o i := by intro o i; simp [State.cb, State.cg, hc]
  simp only [boundaryExc, inEx, Engine.mask, Engine.ru, Engine.rc, Engine.level, Engine.act, hr, hp, hu, hcb]
  rfl

/-- Using an entry of the descriptor cache changes no answer of it. -/
theorem dcFind_dcTouch (g : Engine) (t i u j : Nat) : (g.dcTouch t i).dcFind u j = g.dcFind u j := by
  unfold Engine.dcTouch
  split
  · rename_i x hx
    have hp := List.find?_some hx
    simp only [Bool.and_eq_true, decide_eq_true_eq] at hp
    simp only [Engine.dcFind, Engine.modMem_mem, List.find?_cons]
    by_cases h : u = t ∧ j = i
    · obtain ⟨rfl, rfl⟩ := h
      simp only [hp.1, hp.2, decide_true, Bool.and_true]
      exact hx.symm
    · have hx' : (decide (x.tenant = u) && decide (x.index = j)) = false := by
        simp only [hp.1, hp.2, Bool.and_eq_false_iff, decide_eq_false_iff_not]
        by_cases h1 : t = u
        · right; intro h2; exact h ⟨h1.symm, h2.symm⟩
        · left; exact h1
      simp only [hx']
      rw [List.find?_filter]
      congr 1
      funext y
      by_cases hy : y.tenant = u ∧ y.index = j
      · obtain ⟨rfl, rfl⟩ := hy
        have : ¬ (y.tenant = t ∧ y.index = i) := fun hh => h hh
        simp only [not_and_or] at this
        rcases this with h1 | h1 <;> simp [h1]
      · simp only [not_and_or] at hy
        rcases hy with h1 | h1 <;> simp [h1]
  · rfl

/-- Engine h is engine g after uses of the descriptor cache, the line buffer and the L1 instruction cache: these three alone
may differ, and the descriptor cache answers as before. -/
structure Fetched (g h : Engine) : Prop where
  eq : ∃ dc lb li, h = g.modMem fun m => { m with dcache := dc, lbuf := lb, l1i := li }
  find : ∀ t i, h.dcFind t i = g.dcFind t i

namespace Fetched
variable {g h k : Engine}

theorem refl (g : Engine) : Fetched g g := ⟨⟨g.mem.dcache, g.mem.lbuf, g.mem.l1i, rfl⟩, fun _ _ => rfl⟩

theorem trans (a : Fetched g h) (b : Fetched h k) : Fetched g k := by
  obtain ⟨_, _, _, rfl⟩ := a.eq
  obtain ⟨dc, lb, li, rfl⟩ := b.eq
  exact ⟨⟨dc, lb, li, rfl⟩, fun t i => (b.find t i).trans (a.find t i)⟩

theorem regs (a : Fetched g h) : h.regs = g.regs := by obtain ⟨_, _, _, rfl⟩ := a.eq; rfl
theorem pipe (a : Fetched g h) : h.pipe = g.pipe := by obtain ⟨_, _, _, rfl⟩ := a.eq; rfl
theorem run (a : Fetched g h) : h.run = g.run := by obtain ⟨_, _, _, rfl⟩ := a.eq; rfl
theorem eff (a : Fetched g h) : h.eff = g.eff := by obtain ⟨_, _, _, rfl⟩ := a.eq; rfl
theorem cstore (a : Fetched g h) : h.cstore = g.cstore := by obtain ⟨_, _, _, rfl⟩ := a.eq; rfl
theorem mem (a : Fetched g h) : ∃ dc lb li, h.mem = { g.mem with dcache := dc, lbuf := lb, l1i := li } := by
  obtain ⟨dc, lb, li, rfl⟩ := a.eq; exact ⟨dc, lb, li, rfl⟩

end Fetched

theorem fetched_dcTouch (g : Engine) (t i : Nat) : Fetched g (g.dcTouch t i) := by
  refine ⟨?_, fun _ _ => dcFind_dcTouch g t i _ _⟩
  unfold Engine.dcTouch
  split
  · exact ⟨_, _, _, rfl⟩
  · exact ⟨g.mem.dcache, g.mem.lbuf, g.mem.l1i, rfl⟩

theorem fetched_buf (g : Engine) (lb : List L1I) : Fetched g (g.modMem fun m => { m with lbuf := lb }) :=
  ⟨⟨g.mem.dcache, lb, g.mem.l1i, rfl⟩, fun _ _ => rfl⟩

theorem fetched_l1iTouch (g : Engine) (l : Nat) : Fetched g (g.l1iTouch l) := by
  unfold Engine.l1iTouch
  split
  · exact ⟨⟨g.mem.dcache, g.mem.lbuf, _, rfl⟩, fun _ _ => rfl⟩
  · exact .refl g

/-- Reading the line buffer for an instruction uses the caches of fetch alone. -/
theorem fetched_lbufAt (g : Engine) (l : Nat) : Fetched g (g.lbufAt l) := by
  have one : ∀ (g : Engine) (k : Nat) (kept : List L1I),
      Fetched g ((g.l1iTouch k).modMem fun m => { m with lbuf := kept ++ (g.l1iFind k).toList }) :=
    fun g k kept => (fetched_l1iTouch g k).trans (fetched_buf _ _)
  unfold Engine.lbufAt
  dsimp only
  split
  · split
    · exact .refl g
    · split
      · exact one _ _ _
      · exact (one _ _ _).trans (one _ _ _)
  · exact (one _ _ _).trans (one _ _ _)

/-! ### Issue on an engine that is ready -/

/-- The conditions of `ready`, one by one. -/
theorem ready_iff {s : State} {e n : Nat} : ready s e n = true ↔
    e < 144 ∧ canIssue (s.e e) = true ∧ boundaryExc s e = none ∧ bpMatch s e 0 = none ∧ (s.e e).pipe.slot = none ∧
      (s.e e).pipe.skip = false ∧ (s.e e).dsBit = false ∧ (s.e e).rc = 0 ∧ (s.e e).pipe.pend = [] ∧
      (s.e e).run.stepMode = .run ∧ (s.e e).run.resuming = none ∧ ∃ ty pas, fetchCheck s e n = .ok ty pas ∧
        ((s.e e).lbufAt (pas.headD 0 / 8)).fetchMiss pas = none ∧ (s.e e).aheadMiss (pas.headD 0 / 8) = false := by
  simp only [ready, Bool.and_eq_true, decide_eq_true_eq, Option.isNone_iff_eq_none, Bool.not_eq_true', List.isEmpty_iff]
  constructor
  · rintro ⟨⟨⟨⟨⟨⟨⟨⟨⟨⟨⟨h1, h2⟩, h3⟩, h4⟩, h5⟩, h6⟩, h7⟩, h8⟩, h9⟩, h10⟩, hx⟩, h11⟩
    refine ⟨h1, h2, h3, h4, h5, h6, h7, h8, h9, h10, hx, ?_⟩
    split at h11
    · rename_i ty pas heq
      simp only [Bool.and_eq_true, Bool.not_eq_true'] at h11
      exact ⟨ty, pas, heq, Option.isNone_iff_eq_none.1 h11.1, h11.2⟩
    · cases h11
  · rintro ⟨h1, h2, h3, h4, h5, h6, h7, h8, h9, h10, hx, ty, pas, h11, h12, h13⟩
    refine ⟨⟨⟨⟨⟨⟨⟨⟨⟨⟨⟨h1, h2⟩, h3⟩, h4⟩, h5⟩, h6⟩, h7⟩, h8⟩, h9⟩, h10⟩, hx⟩, ?_⟩
    rw [h11]
    simp only [Bool.and_eq_true, Bool.not_eq_true']
    exact ⟨Option.isNone_iff_eq_none.2 h12, h13⟩

theorem slotLink_none {s : State} {e n : Nat} (h : (s.e e).pipe.slot = none) :
    slotLink e n s = s.modE e fun g => g := by
  simp only [slotLink, State.modE, h]

/-- A wait to the present cycle with nothing outstanding leaves the engine as it is. -/
theorem waitTo_now {s : State} {e t : Nat} (ht : t = (s.e e).pipe.clk) (hp : (s.e e).pipe.pend = []) :
    OnlyEngine e s (waitTo e t s) ∧ (waitTo e t s).e e = s.e e ∧ (waitTo e t s).ctl = s.ctl := by
  refine ⟨waitTo_only e s t, ?_, ?_⟩
  · subst ht
    simp only [waitTo, Nat.sub_self, landNow, State.modE_e_same]
    have h0 : (fixed e 0 s).e e = s.e e := by
      rw [fixed_e]; simp [Engine.modPipe, Engine.modRun]
    rw [h0, landUpTo_empty hp]
  · subst ht
    simp [waitTo, landNow, fixed, cycles]

/-- An instruction that has been fetched, with no illegal field and at a level that reaches it, issues at once where nothing is
outstanding. -/
theorem decoded_plain {q : Iss} {s : State} (body : State → State) (hp : (s.e q.e).pipe.pend = [])
    (hsl : (s.e q.e).pipe.slot = none) (hk : (s.e q.e).pipe.skip = false) (hd : (s.e q.e).dsBit = false)
    (hr : (s.e q.e).rc = 0) (hi : q.ill = none) (hn : q.need ≤ (s.e q.e).level) (hb : boundaryExc s q.e = none) :
    ∃ s1, decoded q body s = finish (counting s1 q.e) q (body s1) ∧ OnlyEngine q.e s s1 ∧ s1.ctl = s.ctl ∧
      Fetched (s.e q.e) (s1.e q.e) := by
  generalize hI : remapIdx s q.e (fld (s.e q.e).regs.cs 0 11) (fld (s.e q.e).regs.cs 12 19) = I
  generalize hB : (s.modE q.e fun g => g.dcTouch (fld g.regs.cs 0 11) (remapIdx s q.e (fld g.regs.cs 0 11) (fld g.regs.cs 12 19)))
    = sB
  have hBe : Fetched (s.e q.e) (sB.e q.e) := by
    rw [← hB, State.modE_e_same]
    exact fetched_dcTouch _ _ _
  have hw := waitTo_now (s := sB) (e := q.e) (t := (s.e q.e).pipe.clk) (by rw [hBe.pipe]) (by rw [hBe.pipe]; exact hp)
  have hC : Fetched (s.e q.e) ((waitTo q.e (s.e q.e).pipe.clk sB).e q.e) := by rw [hw.2.1]; exact hBe
  have hCc : (waitTo q.e (s.e q.e).pipe.clk sB).ctl = s.ctl := by rw [hw.2.2, ← hB]; rfl
  have hbe : boundaryExc (waitTo q.e (s.e q.e).pipe.clk sB) q.e = none := by
    rw [boundaryExc_congr (s := s) hC.regs hC.pipe hC.run hCc, hb]
  have hill : illCause q (s.e q.e) = none := by simp [illCause, hi, hsl, hd, hr]
  have hhz : hazardAt q (s.e q.e) = (s.e q.e).pipe.clk := by simp [hazardAt, hp]
  have hacc : acceptAt q.unit (s.e q.e).pipe.clk (s.e q.e).pipe.pend = (s.e q.e).pipe.clk := by simp [acceptAt, hp]
  refine ⟨waitTo q.e (s.e q.e).pipe.clk sB, ?_, ?_, hCc, hC⟩
  · unfold decoded
    simp only [hB, hk, Bool.false_eq_true, if_false, hill, Nat.not_lt.2 hn, hhz, hacc, Nat.sub_self, count_zero, hbe,
      Option.isSome_none, execute]
  · have hm := modE_only q.e s fun g => g.dcTouch (fld g.regs.cs 0 11) (remapIdx s q.e (fld g.regs.cs 0 11) (fld g.regs.cs 12 19))
    rw [hB] at hm
    exact hm.trans hw.1

theorem fetchCheck_touch (s : State) (e n : Nat) : fetchCheck (s.modE e fun g => g) e n = fetchCheck s e n := by
  have hcg : ∀ i, (s.modE e fun g => g).cg i = s.cg i := fun i => rfl
  simp only [fetchCheck, segCheck, remapIdx, regionCause, inProgram, inBootSram, dramWords, descAddr, State.cf, State.cb,
    State.modE_e_same, hcg]
  rfl

/-- On an engine that is ready, an instruction without an illegal field and at a level that reaches it is carried out: its body
runs in a state that differs from the present one in what fetch has used alone, and the instruction ends. -/
theorem issue_ready {q : Iss} {s : State} (body : State → State) (h : ready s q.e q.len = true) (hi : q.ill = none)
    (hb : q.branch = false ∨ bpMatch s q.e q.len = none) (hn : q.need ≤ (s.e q.e).level) :
    ∃ s1, issue q body s = finish (counting s1 q.e) q (body s1) ∧ OnlyEngine q.e s s1 ∧ s1.ctl = s.ctl ∧
      Fetched (s.e q.e) (s1.e q.e) := by
  obtain ⟨h1, h2, h3, h4, h5, h6, h7, h8, h9, h10, hx, ty, pas, h11, h12, h13⟩ := ready_iff.1 h
  have hx' : inEx (s.e q.e) = false := by simp [inEx, hx]
  have hbp : bpMatch s q.e (if q.branch = true then q.len else 0) = none := by
    rcases hb with hb | hb
    · simp [hb, h4]
    · split
      · exact hb
      · exact h4
  have hfetch := fetchCheck_touch s q.e q.len
  generalize hA : (s.modE q.e fun g => g) = sA at hfetch
  have hg : sA.e q.e = s.e q.e := by simp [← hA]
  have hAc : sA.ctl = s.ctl := by rw [← hA]; rfl
  have hfr : fetchRead q.e (pas.headD 0 / 8) sA = sA.modE q.e fun g => g.lbufAt (pas.headD 0 / 8) := by
    simp only [fetchRead, hg, h13, Bool.false_eq_true, if_false]
  generalize hL : (sA.modE q.e fun g => g.lbufAt (pas.headD 0 / 8)) = sL at hfr
  have hLe : sL.e q.e = (s.e q.e).lbufAt (pas.headD 0 / 8) := by rw [← hL]; simp [hg]
  have hF : Fetched (s.e q.e) (sL.e q.e) := by rw [hLe]; exact fetched_lbufAt _ _
  have hLc : sL.ctl = s.ctl := by rw [← hL]; exact hAc
  have hmiss : (sL.e q.e).fetchMiss pas = none := by rw [hLe]; exact h12
  obtain ⟨s1, e1, e2, e3, e4⟩ := decoded_plain (s := sL) (q := q) body (by rw [hF.pipe]; exact h9) (by rw [hF.pipe]; exact h5)
    (by rw [hF.pipe]; exact h6) (by simpa [Engine.dsBit, hF.regs] using h7) (by simpa [Engine.rc, hF.regs] using h8) hi
    (by simpa [Engine.level, hF.regs] using hn) (by rw [boundaryExc_congr (s := s) hF.regs hF.pipe hF.run hLc, h3])
  refine ⟨s1, ?_, ?_, e3.trans hLc, hF.trans e4⟩
  · rw [← e1]
    have hLrc : (sL.e q.e).rc = 0 := by simpa [Engine.rc, hF.regs] using h8
    simp only [issue, h2, h3, hx', hbp, h8, Bool.not_true, Option.isSome_none, Bool.false_eq_true, if_false, slotLink_none h5, hA,
      fetched, hfetch, h11, hfr, hmiss, hLrc, if_true, ne_eq, not_true_eq_false, decide_false, Bool.and_false]
  · have m1 := modE_only q.e s fun g => g
    have m2 := modE_only q.e sA fun g => g.lbufAt (pas.headD 0 / 8)
    rw [hA] at m1
    rw [hL] at m2
    exact m1.trans (m2.trans e2)

end Sys2Proof.Machine
end

