-- ==== Sys2Proof/Laws/Integer.lean ====
section
/-! SUPPORT. What an integer instruction leaves on an engine that is ready: its result, its flags, the program counter. -/

namespace Sys2Proof.Machine

/-- What the parts that issue asks for before the end of an instruction say of an engine that may issue. -/
theorem canIssue_parts {g : Engine} (h : canIssue g = true) :
    g.pipe.exc = none ∧ g.run.stall = none ∧ g.run.stealing = false ∧ g.run.inService = true ∧ g.run.inReset = false ∧
      g.run.halted = false := by
  simp only [canIssue, Bool.and_eq_true, Bool.not_eq_true', Option.isNone_iff_eq_none] at h
  obtain ⟨⟨⟨⟨⟨⟨⟨⟨⟨h1, h2⟩, h3⟩, h4⟩, h5⟩, h6⟩, h7⟩, h8⟩, h9⟩, h10⟩ := h
  exact ⟨h6, h5, h8, h1, h2, h3⟩

/-- The end of an instruction on an engine that has met no fault or stall, repeats nothing, and stands in no delay slot. -/
theorem finish_plain {adm : Bool} {q : Iss} {u : State} (hx : (u.e q.e).pipe.exc = none) (hs : (u.e q.e).run.stall = none)
    (hz : (u.e q.e).run.stealing = false) (hr : (u.e q.e).rc = 0) (hl : (u.e q.e).pipe.slot = none)
    (hm : (u.e q.e).run.stepMode = .run) :
    (finish adm q u).e q.e =
      (((if q.seq then (u.e q.e).modRegs fun r => { r with pc := ((u.e q.e).regs.pc + q.len) % pcMod } else u.e q.e).landUpTo
        (u.e q.e).pipe.clk).modRun fun r => { r with bpSkip := false }) := by
  have hrun : ∀ (g : Engine) (t : Nat), (g.landUpTo t).run = g.run := by
    intro g t
    have : ∀ (ps : List Pend) (g : Engine), (landList t ps g).1.run = g.run := by
      intro ps
      induction ps with
      | nil => intro g; rfl
      | cons p ps ih =>
        intro g
        simp only [landList]
        split
        · rw [ih]; unfold Engine.land; split <;> simp
        · rfl
    simp [Engine.landUpTo, this]
  unfold finish
  simp only [hx, hs, hz, hr, hl, Option.isSome_none, Bool.or_self, Bool.false_eq_true, if_false, ne_eq, not_true_eq_false,
    decide_false, Bool.false_and]
  cases q.seq with
  | true =>
    simp only [if_true, stepEnd, landNow, State.modE_e_same, setPc, countIf_e, hrun, Engine.modRegs_run, hm]
    rfl
  | false =>
    simp only [Bool.false_eq_true, if_false, stepEnd, landNow, State.modE_e_same, countIf_e, hrun, hm]

/-- The registers after a result of one cycle has landed: W`a` and the flags. -/
def AluR.landed (r : AluR) (a : Nat) (x : Regs) : Regs :=
  { x with
    w := match r.res with
      | some v => tset 0 x.w a v
      | none => x.w
    st := (x.st &&& ~~~ r.m) ||| (r.v &&& r.m) ||| r.o }

theorem allW_eq : allW = BitVec.allOnes 36 := by decide

theorem resW_land (g : Engine) (d : Dst) (v : Word) (t : Nat) : g.land (resW d v t) = g.wr d v := by
  have h : v &&& BitVec.allOnes 36 = v := BitVec.and_allOnes
  simp only [Engine.land, resW, allW_eq, h]
  simp

theorem resF_land (g : Engine) (m v o : Word) (t : Nat) :
    g.land (resF m v o t) = g.wr .st ((g.regs.st &&& ~~~ m) ||| (v &&& m) ||| o) := rfl

/-- The results that an integer instruction enters. -/
def AluR.pends (r : AluR) (a t : Nat) : List Pend :=
  (match r.res with
    | some v => [resW (.w a) v t]
    | none => []) ++ (if r.m = 0 && r.o = 0 then [] else [resF r.m r.v r.o t])

theorem AluR.pends_at (r : AluR) (a t : Nat) : ∀ p ∈ r.pends a t, p.at_ ≤ t := by
  intro p hp
  rcases List.mem_append.1 hp with hp | hp
  · split at hp
    · simp only [List.mem_singleton] at hp; subst hp; exact Nat.le_refl _
    · cases hp
  · split at hp
    · cases hp
    · simp only [List.mem_singleton] at hp; subst hp; exact Nat.le_refl _

theorem and_not_zero (x v : Word) : (x &&& ~~~ 0) ||| (v &&& 0) ||| 0 = x := by
  apply word_ext; intro i hi
  rw [bit_or _ _ hi, bit_or _ _ hi, bit_and _ _ hi, bit_and _ _ hi, bit_not _ hi]
  simp

theorem AluR.land_pends (r : AluR) (a t : Nat) (g : Engine) :
    (r.pends a t).foldl Engine.land g = { g with regs := r.landed a g.regs } := by
  obtain ⟨res, m, v, o⟩ := r
  by_cases hmo : m = 0 ∧ o = 0
  · obtain ⟨rfl, rfl⟩ := hmo
    cases res <;>
      simp only [AluR.pends, AluR.landed, decide_true, Bool.and_self, if_true, List.append_nil, List.foldl_cons, List.foldl_nil, resW_land, and_not_zero]
    rfl
  · have : (decide (m = 0) && decide (o = 0)) = false := by
      simp only [Bool.and_eq_false_iff, decide_eq_false_iff_not]; exact not_and_or.1 hmo
    cases res <;>
      simp only [AluR.pends, AluR.landed, this, Bool.false_eq_true, if_false, List.nil_append, List.cons_append,
        List.foldl_cons, List.foldl_nil, resW_land, resF_land] <;> rfl

theorem aluPost_pend (e a d : Nat) (r : AluR) (s : State) (h : (s.e e).pipe.pend = []) :
    (aluPost e a d r s).e e = (s.e e).modPipe fun p => { p with pend := r.pends a ((s.e e).pipe.clk + d) } := by
  obtain ⟨res, m, v, o⟩ := r
  simp only [aluPost, State.modE_e_same, AluR.pends]
  generalize s.e e = g at h ⊢
  obtain ⟨regs, eff, ⟨clk, cyc, pend, slot, skip, accH, accL, exc, divDue, stLoss, budgetPend, budgetRaised, dlPend, mf⟩, mem, run, cst⟩ := g
  simp only at h
  subst h
  cases res <;> simp only <;> split <;> simp [Engine.post, pendIns, Engine.modPipe, resW, resF]

/-- What one integer instruction of one cycle leaves on an engine that is ready. -/
theorem aluI_ready {i : Instr} {e len a : Nat} {rds : List Dst} {ws fl : Bool} {f : Engine → AluR} {s : State}
    (h : ready s e len = true) (hf : ∀ g k, Fetched g k → f k = f g) :
    let t := aluI i e len a none rds ws fl f s
    OnlyEngine e s t ∧
      (t.e e).regs = { (f (s.e e)).landed a (s.e e).regs with pc := ((s.e e).regs.pc + len) % pcMod } ∧
      (t.e e).pipe = { (s.e e).pipe with clk := (s.e e).pipe.clk + 1, cyc := (s.e e).pipe.cyc + 1 } ∧
      (t.e e).eff = (s.e e).eff ∧ (∃ dc lb li, (t.e e).mem = { (s.e e).mem with dcache := dc, lbuf := lb, l1i := li }) := by
  intro t
  let q : Iss :=
    { e := e, instr := i, len := len, ill := none, slotOk := true, rep := true, branch := false, need := 0
      reads := rds, writes := (if ws then [.w a] else []) ++ (if fl then [.st] else []), unit := .none, seq := true }
  obtain ⟨_, h2, _, _, h5, _, _, h8, h9, h10, _⟩ := ready_iff.1 h
  obtain ⟨p1, p2, p3, _⟩ := canIssue_parts h2
  obtain ⟨s1, hq, ho, hc, he⟩ :=
    issue_ready (q := q) (fun s => fixed e 1 (aluPost e a 1 (f (s.e e)) s)) h rfl (.inl rfl) (Nat.zero_le _)
  let adm := counting s1 e
  have ht : t = finish adm q (fixed e 1 (aluPost e a 1 (f (s1.e e)) s1)) := hq
  have he' : Fetched (s.e e) (s1.e e) := he
  have hfs : f (s1.e e) = f (s.e e) := hf _ _ he'
  rw [hfs] at ht
  let r := f (s.e e)
  let u := fixed e 1 (aluPost e a 1 r s1)
  let c := (s.e e).pipe.clk
  let ps : List Pend := r.pends a (c + 1)
  have hclk : (s1.e e).pipe.clk = c := by rw [he'.pipe]
  have hpost : (aluPost e a 1 r s1).e e = (s1.e e).modPipe fun p => { p with pend := ps } := by
    rw [aluPost_pend _ _ _ _ _ (by rw [he'.pipe]; exact h9), hclk]
  have hu : (u.e e).pipe = { (s.e e).pipe with clk := c + 1, cyc := (s.e e).pipe.cyc + 1, pend := ps } := by
    simp only [u, fixed_pipe, hpost, he'.pipe, Engine.modPipe_pipe, c]
  have hur : (u.e e).regs = (s.e e).regs := by simp [u, hpost, he'.regs]
  have huu : (u.e e).run.stall = none ∧ (u.e e).run.stealing = false ∧ (u.e e).run.stepMode = .run := by
    simp only [u, fixed_run, hpost, Engine.modPipe_run, he'.run]
    split <;> exact ⟨p2, p3, h10⟩
  have hfin := finish_plain (adm := adm) (q := q) (u := u) (by rw [show (u.e q.e).pipe = _ from hu]; exact p1) huu.1 huu.2.1
    (by show fld (u.e e).regs.st 24 35 = 0; rw [hur]; exact h8) (by rw [show (u.e q.e).pipe = _ from hu]; exact h5) huu.2.2
  let g1 := (u.e e).modRegs fun r => { r with pc := ((u.e e).regs.pc + len) % pcMod }
  have hfin' : (finish adm q u).e e = (g1.landUpTo (c + 1)).modRun fun r => { r with bpSkip := false } := by
    have := hfin
    rw [show (u.e q.e).pipe.clk = c + 1 by rw [show (u.e q.e).pipe = _ from hu]] at this
    exact this
  have hland : g1.landUpTo (c + 1) = (ps.foldl Engine.land g1).modPipe fun p => { p with pend := [] } := by
    have hp : g1.pipe.pend = ps := by simp only [g1, Engine.modRegs_pipe, hu]
    simp only [Engine.landUpTo, hp, landList_all _ _ _ (r.pends_at a (c + 1)), ps]
  have hfold : ps.foldl Engine.land g1 = { g1 with regs := r.landed a g1.regs } := r.land_pends a _ g1
  have hge : t.e e = ({ g1 with regs := r.landed a g1.regs }.modPipe fun p => { p with pend := [] }).modRun
      fun r => { r with bpSkip := false } := by
    rw [ht]; show (finish adm q u).e e = _
    rw [hfin', hland, hfold]
  have hem : (u.e e).mem = (s1.e e).mem := by simp [u, hpost]
  have hef : (u.e e).eff = (s.e e).eff := by simp [u, hpost, he'.eff]
  refine ⟨?_, ?_, ?_, ?_, ?_⟩
  · rw [ht]
    refine ho.trans (.trans ?_ (finish_only _ adm q))
    exact .trans (modE_only e s1 _) (fixed_only e _ 1)
  · rw [hge]
    simp only [Engine.modRun_regs, Engine.modPipe_regs, g1, Engine.modRegs_regs, hur]
    rfl
  · rw [hge]
    simp only [Engine.modRun_pipe, Engine.modPipe_pipe, g1, Engine.modRegs_pipe, hu, h9]
    rfl
  · rw [hge]
    simp only [Engine.modRun_eff, Engine.modPipe_eff, g1, Engine.modRegs_eff, hef]
  · obtain ⟨dc, lb, li, hm⟩ := he'.mem
    refine ⟨dc, lb, li, ?_⟩
    rw [hge]
    simp only [Engine.modRun_mem, Engine.modPipe_mem, g1, Engine.modRegs_mem, hem]
    exact hm

end Sys2Proof.Machine
end

