-- ==== Sys2Proof/Laws/Memory.lean ====
section
/-! SUPPORT. The memory system: every operation that writes DRAM, its check words or the boot SRAM keeps the canonical form, and a
line reads as it was written. The operations below are all that write these tables. -/

namespace Sys2Proof.Machine

/-- A fold of table writes keeps the canonical form. -/
theorem twf_foldl {α β : Type} [DecidableEq α] (d : α) (k : β → Nat) (v : β → α) (l : List β) {t : Tbl α} (h : twf d t = true) :
    twf d (l.foldl (fun t p => tset d t (k p) (v p)) t) = true := by
  induction l generalizing t with
  | nil => exact h
  | cons a l ih => exact ih (twf_tset d h _ _)

theorem Mem.wf_iff (m : Mem) : m.wf = true ↔ twf 0 m.dram = true ∧ twf 0 m.chk = true ∧ twf 0 m.bootSram = true := by
  simp [Mem.wf, and_assoc]

theorem Mem.wf_congr {m n : Mem} (hd : n.dram = m.dram) (hc : n.chk = m.chk) (hb : n.bootSram = m.bootSram) (h : m.wf = true) :
    n.wf = true := by
  rw [Mem.wf_iff] at h ⊢
  rwa [hd, hc, hb]

/-! ### DRAM lines -/

theorem setDramLine_wf (l : Nat) (ws : List Word) {s : State} (h : s.mem.wf = true) : (setDramLine l ws s).mem.wf = true := by
  rw [Mem.wf_iff] at h ⊢
  exact ⟨twf_foldl 0 _ _ _ h.1, h.2.1, h.2.2⟩

/-- A fold of writes at indices that all differ from j leaves j. -/
theorem tget_foldl_ne {α β : Type} [DecidableEq α] (d : α) (k : β → Nat) (v : β → α) (j : Nat) :
    ∀ (l : List β) (t : Tbl α), (∀ p ∈ l, k p ≠ j) → tget d (l.foldl (fun t p => tset d t (k p) (v p)) t) j = tget d t j
  | [], _, _ => rfl
  | a :: l, t, h => by
    rw [List.foldl_cons, tget_foldl_ne d k v j l _ fun p hp => h p (by simp [hp]), tget_tset_ne]
    exact h a (by simp)

/-- A line reads as it was written. -/
theorem dramLine_set (l : Nat) {ws : List Word} (h : ws.length = 8) (s : State) : dramLine (setDramLine l ws s) l = ws := by
  match ws, h with
  | [a, b, c, d, e, f, g, i], _ =>
    simp only [dramLine, setDramLine, State.modMem, List.range, List.range.loop, List.zipWith, List.foldl, List.map]
    simp [tget_tset_ne]

/-- Another line is left as it was. -/
theorem dramLine_set_ne {l m : Nat} (hm : l ≠ m) {ws : List Word} (h : ws.length = 8) (s : State) :
    dramLine (setDramLine l ws s) m = dramLine s m := by
  match ws, h with
  | [a, b, c, d, e, f, g, i], _ =>
    refine List.map_congr_left fun k hk => ?_
    have hk : k < 8 := List.mem_range.mp hk
    simp only [setDramLine, State.modMem]
    refine tget_foldl_ne 0 (fun p : Nat × Word => 8 * l + p.1) Prod.snd _ _ _ fun p hp => ?_
    simp only [List.range, List.range.loop, List.zipWith, List.mem_cons, List.not_mem_nil, or_false] at hp
    rcases hp with rfl | rfl | rfl | rfl | rfl | rfl | rfl | rfl <;> simp <;> omega

/-! ### Check words -/

theorem ckWriteBack_wf (c : CkLine) {s : State} (h : s.mem.wf = true) : (ckWriteBack c s).mem.wf = true := by
  rw [Mem.wf_iff] at h ⊢
  exact ⟨h.1, twf_foldl 0 _ _ _ h.2.1, h.2.2⟩

theorem ckFetch_wf (g : Nat) {s : State} (h : s.mem.wf = true) : (ckFetch g s).mem.wf = true := by
  unfold ckFetch
  dsimp only
  split
  · exact h
  · split
    · split
      · exact ckWriteBack_wf _ h
      · exact h
    · exact h

theorem ckRead_wf (l : Nat) {s : State} (h : s.mem.wf = true) : (ckRead l s).2.mem.wf = true := by
  unfold ckRead
  dsimp only
  split <;> exact ckFetch_wf _ h

theorem ckWrite_wf (l : Nat) (w : Word) {s : State} (h : s.mem.wf = true) : (ckWrite l w s).mem.wf = true :=
  Mem.wf_congr (m := (ckFetch (l / 8) s).mem) rfl rfl rfl (ckFetch_wf _ h)

theorem ptabDel_wf (l : Nat) {s : State} (h : s.mem.wf = true) : (ptabDel l s).mem.wf = true := h

theorem ptabAdd_wf (l : Nat) {s : State} (h : s.mem.wf = true) : (ptabAdd l s).mem.wf = true := by
  unfold ptabAdd
  dsimp only
  split <;> exact h

theorem mcCount_wf (sub a b : Nat) {s : State} (h : s.mem.wf = true) : (mcCount sub a b s).mem.wf = true := h

/-! ### Copies and lines -/

theorem copyWrite_wf (l : Nat) (ws : List Word) {s : State} (h : s.mem.wf = true) : (copyWrite l ws s).mem.wf = true := by
  unfold copyWrite
  split
  · exact h
  · dsimp only
    split
    · exact ptabDel_wf _ (setDramLine_wf _ _ h)
    · exact ckWrite_wf _ _ (setDramLine_wf _ _ h)

theorem copyPoison_wf (l : Nat) {s : State} (h : s.mem.wf = true) : (copyPoison l s).mem.wf = true := by
  unfold copyPoison
  split
  · exact h
  · dsimp only
    split
    · exact ptabAdd_wf _ (setDramLine_wf _ _ h)
    · exact ckWrite_wf _ _ (setDramLine_wf _ _ h)

theorem copyRead_wf (l : Nat) {s : State} (h : s.mem.wf = true) : (copyRead l s).2.mem.wf = true := by
  unfold copyRead
  dsimp only
  split
  · exact h
  · split
    · split <;> exact h
    · split
      · exact ckRead_wf _ h
      · exact mcCount_wf _ _ _ (ckWrite_wf _ _ (setDramLine_wf _ _ (ckRead_wf _ h)))
      · exact ckRead_wf _ h
      · exact mcCount_wf _ _ _ (copyPoison_wf _ (ckRead_wf _ h))

theorem memRead_wf (l : Nat) {s : State} (h : s.mem.wf = true) : (memRead l s).2.mem.wf = true := by
  unfold memRead
  dsimp only
  split
  · exact copyRead_wf _ h
  · split
    · have hq := copyRead_wf (shadowOf s l) (mcCount_wf (dataSub l) 27 35 (copyRead_wf l h))
      split
      · exact hq
      · exact copyWrite_wf _ _ hq
    · exact copyRead_wf _ h

theorem memWrite_wf (l : Nat) (ws : List Word) {s : State} (h : s.mem.wf = true) : (memWrite l ws s).mem.wf = true := by
  unfold memWrite
  dsimp only
  split
  · exact copyWrite_wf _ _ (copyWrite_wf _ _ h)
  · exact copyWrite_wf _ _ h

theorem memPoison_wf (l : Nat) {s : State} (h : s.mem.wf = true) : (memPoison l s).mem.wf = true := by
  unfold memPoison
  dsimp only
  split
  · exact copyPoison_wf _ (copyPoison_wf _ h)
  · exact copyPoison_wf _ h

/-! ### The boot SRAM, and the check caches' write-back at a reset -/

theorem bootSram_set_wf (i : Nat) (w : Word) {s : State} (h : s.mem.wf = true) :
    (s.modMem fun m => { m with bootSram := tset 0 m.bootSram i w }).mem.wf = true := by
  rw [Mem.wf_iff] at h ⊢
  exact ⟨h.1, h.2.1, twf_tset 0 h.2.2 _ _⟩

theorem css_mem (off : Nat) (ws : List Word) (s : State) : (s.css off ws).mem = s.mem := by
  induction ws generalizing off s with
  | nil => rfl
  | cons w l ih => exact (ih (off + 1) (s.cs off w)).trans rfl

theorem cg_cs_same (s : State) (off : Nat) (w : Word) : (s.cs off w).cg off = w := tget_tset_same _ _ _ _

theorem cg_cs_ne (s : State) {off o : Nat} (w : Word) (h : off ≠ o) : (s.cs off w).cg o = s.cg o := by
  simp only [State.cg, State.cs, tset]
  split
  · exact tget_tdel_ne _ _ h
  · exact tget_tput_ne _ _ _ h

/-- Words stored from `off` on: each reads back, and every other offset of the window reads as before. -/
theorem cg_css (off : Nat) (ws : List Word) (s : State) (o : Nat) :
    (s.css off ws).cg o = if off ≤ o ∧ o < off + ws.length then ws.getD (o - off) 0 else s.cg o := by
  induction ws generalizing off s with
  | nil => rw [if_neg (by simp)]; rfl
  | cons w l ih =>
    rw [State.css, ih]
    by_cases h : o = off
    · subst h; rw [if_neg (by omega), if_pos (by simp), cg_cs_same]; simp
    · rw [cg_cs_ne _ _ (Ne.symm h)]
      by_cases h2 : off + 1 ≤ o ∧ o < off + 1 + l.length
      · rw [if_pos h2, if_pos (by simp; omega), show o - off = (o - (off + 1)) + 1 by omega, List.getD_cons_succ]
      · rw [if_neg h2, if_neg (by simp; omega)]

theorem bootLock_mem (i base n : Nat) (s : State) : (bootLock i base n s).mem = s.mem := css_mem _ _ _

/-- A whole table of boot-SRAM words in canonical form. -/
theorem bootSram_put_wf {t : Tbl Word} (ht : twf 0 t = true) {s : State} (h : s.mem.wf = true) :
    (s.modMem fun m => { m with bootSram := t }).mem.wf = true := by
  rw [Mem.wf_iff] at h ⊢
  exact ⟨h.1, h.2.1, ht⟩

theorem loadBootSram_wf (w : List Octet) {s : State} (h : s.mem.wf = true) : (loadBootSram w s).mem.wf = true := by
  unfold loadBootSram
  simp only [bootLock_mem]
  exact bootSram_put_wf (twf_foldl 0 Prod.fst Prod.snd _ rfl) h

theorem flushChecks_wf {m : Mem} (h : twf 0 m.chk = true) : twf 0 (flushChecks m) = true := by
  unfold flushChecks
  generalize m.chk = t at h
  induction m.ckc generalizing t with
  | nil => exact h
  | cons p l ih =>
    refine ih _ ?_
    clear ih
    dsimp only
    generalize p.2 = q
    induction q generalizing t with
    | nil => exact h
    | cons c q ih2 =>
      refine ih2 _ ?_
      dsimp only
      split
      · exact twf_foldl 0 _ _ _ h
      · exact h

/-- The memory right after reset lists nothing. -/
theorem reset_mem_wf : State.reset.mem.wf = true := rfl

end Sys2Proof.Machine
end

