-- ==== Sys2Proof/Laws/Shared.lean ====
section
/-! SUPPORT. What the shared operations outside the engines can do: events and device time, the journal and the configuration store,
requests to homes, and frames in the transmit queues. Each lemma says once all that its operation changes. -/

namespace Sys2Proof.Machine

/-! ### Device time -/

@[simp] theorem bringTo_devTime (t : Nat) (s : State) : (bringTo t s).net.devTime = max s.net.devTime t := rfl

/-- An event's instant changes device time and nothing else. -/
theorem bringTo_else (t : Nat) (s : State) :
    bringTo t s = { s with net := { s.net with devTime := max s.net.devTime t } } := rfl

@[simp] theorem bringTo_ctl (t : Nat) (s : State) : (bringTo t s).ctl = s.ctl := rfl
@[simp] theorem bringTo_eng (t : Nat) (s : State) : (bringTo t s).eng = s.eng := rfl
@[simp] theorem bringTo_wel (t : Nat) (s : State) : (bringTo t s).wel = s.wel := rfl
@[simp] theorem bringTo_cg (t off : Nat) (s : State) : (bringTo t s).cg off = s.cg off := rfl
@[simp] theorem bringTo_pending (t : Nat) (s : State) : (bringTo t s).pending = s.pending := rfl

/-- A tick of the root clock: the fractions that device time and its rest hold together grow by the increment (R435). -/
theorem rootTick_exact (s : State) :
    (rootTick s).net.devTime * fine + (rootTick s).net.frac =
      s.net.devTime * fine + s.net.frac + (2048 * ((2 ^ 40 : Int) + sgn (s.cg (ethBlk + 0o40014)))).toNat := by
  simp only [rootTick, Nat.add_mul]
  have := Nat.div_add_mod (s.net.frac + (2048 * ((2 ^ 40 : Int) + sgn (s.cg (ethBlk + 0o40014)))).toNat) fine
  rw [Nat.mul_comm fine] at this
  omega

/-! ### The journal and the store -/

/-- One entry: the journal grows by it, and nothing else changes. -/
theorem jPut_spec (src srcId role cmd err t : Nat) (od : List Octet) (d : List Word) (s : State) :
    ∃ e : JEntry, e.seqno = s.wel.jnext + 1 ∧ e.cmd = cmd ∧ e.tscope = t ∧ e.time = s.net.devTime ∧ e.detail = d.take 8 ∧
      jPut src srcId role cmd err t od d s =
        { s with wel := { s.wel with journal := s.wel.journal ++ [e], jnext := s.wel.jnext + 1 } } :=
  ⟨_, rfl, rfl, rfl, rfl, rfl, rfl⟩

/-- A refused flash write is declared failed and changes nothing else (R555). -/
theorem flashWrite_refused {u : FlashUser} {a : FlashArea} {s : State} (f : State → State) (h : flashMay u a s = false) :
    flashWrite u a f s = { s with answer := .failed 2 } := by simp [flashWrite, h]

/-- An admitted one is made. -/
theorem flashWrite_made {u : FlashUser} {a : FlashArea} {s : State} (f : State → State) (h : flashMay u a s = true) :
    flashWrite u a f s = f s := by simp [flashWrite, h]

/-- Welana writes the journal and the store while VOK is 1. -/
theorem flashMay_journal {s : State} (h : vok s = true) : flashMay .management .journal s = true := by
  simp [flashMay, h, FlashArea.place, mib]

theorem flashMay_bank {s : State} (b : Bool) (h : vok s = true) : flashMay .management (.bank b) s = true := by
  cases b <;> simp [flashMay, h, FlashArea.place, mib]

/-- An event changes the journal alone while VOK is 1; its number is the last one used, and its entry the newest. -/
theorem jEvent_spec (code t : Nat) (ws : List Word) {s : State} (hv : vok s = true) :
    ∃ (j : List JEntry) (e : JEntry) (n : Nat), s.wel.jnext < n ∧ e.cmd = code ∧ e.tscope = t ∧
      jEvent code t ws s = { s with wel := { s.wel with journal := j ++ [e], jnext := n } } := by
  unfold jEvent jWrite
  rw [flashWrite_made _ (flashMay_journal hv)]
  unfold jRoom
  split
  · obtain ⟨e, -, h1, h2, -, -, h⟩ := jPut_spec 0 0 0 code 0 t (zeros 48) ws s
    exact ⟨_, e, _, Nat.lt_succ_self _, h1, h2, h⟩
  · dsimp only
    obtain ⟨x, -, -, -, -, -, hx⟩ := jPut_spec 0 0 0 0o413 0 0 (zeros 48) _ (s.modWel fun w => { w with journal := w.journal.drop jBlock })
    rw [hx]
    obtain ⟨e, -, h1, h2, -, -, h⟩ := jPut_spec 0 0 0 code 0 t (zeros 48) ws _
    rw [h]
    exact ⟨_, e, _, Nat.lt_succ_of_lt (Nat.lt_succ_self _), h1, h2, rfl⟩

/-- While VOK is 0 it is not journaled, and nothing else of the device changes (R555). -/
theorem jEvent_ungated (code t : Nat) (ws : List Word) {s : State} (hv : vok s = false) :
    jEvent code t ws s = { s with answer := .failed 2 } := by
  unfold jEvent jWrite
  exact flashWrite_refused _ (by simp [flashMay, hv])

/-- A new base changes the banks alone, or, refused, the answer. -/
theorem rebase_spec (n : Nat) (rs : List StoreRec) (s : State) :
    ∃ a b u r w, rebase n rs s = { s with wel := { s.wel with bankA := a, bankB := b, bankInUse := u, rebaseAt := r }, answer := w } := by
  unfold rebase
  dsimp only
  generalize (!s.wel.bankInUse) = o
  cases hm : flashMay .management (.bank o) s
  · rw [flashWrite_refused _ hm]
    exact ⟨_, _, _, _, _, rfl⟩
  · rw [flashWrite_made _ hm]
    split
    · exact ⟨_, _, _, _, _, rfl⟩
    · cases o <;> exact ⟨_, _, _, _, _, rfl⟩

/-- A delta of the configuration store changes the banks alone, or, refused, the answer. -/
theorem storeDelta_spec (rs : List StoreRec) (s : State) :
    ∃ a b u r w, storeDelta rs s =
      { s with wel := { s.wel with bankA := a, bankB := b, bankInUse := u, rebaseAt := r }, answer := w } := by
  unfold storeDelta storeDeltaAt
  split
  · exact ⟨_, _, _, _, _, rfl⟩
  · cases hm : flashMay .management (.bank s.wel.bankInUse) s
    · rw [flashWrite_refused _ hm]
      exact ⟨_, _, _, _, _, rfl⟩
    · rw [flashWrite_made _ hm]
      dsimp only
      split
      · cases s.wel.bankInUse <;> exact ⟨_, _, _, _, _, rfl⟩
      · exact rebase_spec _ _ s

/-! ### Requests to homes -/

/-- A request goes out unless one of the agent for the line is outstanding (R327). -/
theorem request_spec (ag : Agent) (l tenant : Nat) (k : ReqKind) (s : State) :
    request ag l tenant k s =
      if reqOut s ag l then s else { s with home := { s.home with net := s.home.net ++ [.req ag l tenant k] } } := rfl

/-- After a request the agent has one outstanding for the line. -/
theorem reqOut_request (ag : Agent) (l tenant : Nat) (k : ReqKind) (s : State) : reqOut (request ag l tenant k s) ag l = true := by
  unfold request
  split
  · assumption
  · simp [reqOut, send]

/-! ### Transmit queues -/

@[simp] theorem State.port_modPort (p : Nat) (f : Port → Port) (s : State) : (s.modPort p f).port p = f (s.port p) :=
  tget_tset_same _ _ _ _

theorem State.port_modPort_ne {p q : Nat} (h : p ≠ q) (f : Port → Port) (s : State) : (s.modPort p f).port q = s.port q :=
  tget_tset_ne _ _ _ h


@[simp] theorem txQ_setTxQ (p k : Nat) (q : List TxFrame) (s : State) : txQ (setTxQ p k q s) p k = q := by
  rw [txQ, setTxQ, State.port_modPort]
  exact tget_tset_same _ _ _ _

theorem txQ_setTxQ_ne (p : Nat) {k j : Nat} (h : k ≠ j) (q : List TxFrame) (s : State) : txQ (setTxQ p k q s) p j = txQ s p j := by
  rw [txQ, setTxQ, State.port_modPort]
  exact tget_tset_ne _ _ _ h

/-- A frame of at most 1,518 octets takes the last place of its queue where the link is up and the queue has room (R421,
R412). -/
theorem queueFrame_room {p k : Nat} {s : State} (os : List Octet) (full : Option Nat) (hl : portLink s p = true)
    (hn : os.length ≤ 1518) (hr : (txQ s p k).length < 64) :
    queueFrame p k os full s = setTxQ p k (txQ s p k ++ [{ octets := padFrame os, cls := k, frags := 0 }]) s := by
  simp [queueFrame, hl, Nat.not_le.mpr hr, Nat.not_lt.mpr hn]

/-- Without a link it is discarded and counted in TXDROP. -/
theorem queueFrame_down {p k : Nat} {s : State} (os : List Octet) (full : Option Nat) (hl : portLink s p = false) :
    queueFrame p k os full s = pCount p 13 s := by
  simp [queueFrame, hl]

end Sys2Proof.Machine
end

