-- ==== Sys2Proof/Tests/Slice0.lean ====
section
/-! SUPPORT. Tests: the well-formedness checks, words of the encoding, small runs of single commands, and for each statement a
state and operands that meet its hypotheses, clause by clause. -/

namespace Sys2Proof.Tests

-- One proof at a time: each theorem in progress holds a thread, and a thread's stack counts in the memory limit.
set_option Elab.async false
-- The computations of some commands are deep.
set_option maxRecDepth 4000

open Sys2Proof Sys2Proof.Machine Sys2Proof.Claims

/-! ## Small states -/

/-- A next state with a property. -/
def okay (o : Host.Outcome State Fault Refusal) (p : State → Bool) : Bool :=
  match o with
  | .next t => p t
  | _ => false

/-- Descriptors of tenant 0: code in the boot SRAM, data from word 200000 (octal) on, near store; each with every right. -/
def codeD : DcEntry :=
  { tenant := 0, index := 0, d0 := mkW (ctlBase + bootSramBlk), d1 := place 0 2 2 ||| place 5 5 1 ||| place 20 21 3 }
def dataD : DcEntry :=
  { tenant := 0, index := 1, d0 := mkW 0o200000, d1 := place 0 2 1 ||| place 3 4 3 ||| place 20 21 1 }
def nearD : DcEntry := { tenant := 0, index := 2, d0 := 0, d1 := place 0 2 3 ||| place 3 4 3 ||| place 20 21 1 }
def devD : DcEntry :=
  { tenant := 0, index := 3, d0 := mkW (ctlBase + relBlk), d1 := place 0 2 4 ||| place 3 4 3 ||| place 20 21 1 }

/-- Line k of the code, in the L1 instruction cache. -/
def codeL (k : Nat) : L1I := { line := (ctlBase + bootSramBlk) / 8 + k, ws := zeroLine, pois := false }

/-- An engine that runs at M level, its code in the L1 instruction cache: D0 selects the data segment, D1 the near store, D2 a device segment. -/
def g0 : Engine :=
  { Engine.reset with
    regs := { Regs.reset with d := [(0, mkSel 0 1), (1, mkSel 0 2), (2, mkSel 0 3)] }
    eff := { Eff.reset with d := [(0, mkSel 0 1), (1, mkSel 0 2), (2, mkSel 0 3)] }
    run := { ERun.reset with inReset := false }
    mem := { EMem.reset with dcache := [codeD, dataD, nearD, devD], l1i := [codeL 0, codeL 1, codeL 2] } }

/-- A device of 8 MW of memory. -/
def base : State := State.reset.csf rMEMCFG 5 35 0o10000000

/-- The same, in which engine e is as given. -/
def withE (e : Nat) (g : Engine) : State := base.setE e g

def regs (ws : List (Nat × Word)) (g : Engine) : Engine := g.modRegs fun r => { r with w := ws }

/-- A store-buffer entry of word 200000 (octal), which is to become 3. -/
def sb1 : SbEntry :=
  { line := 0o20000, tenant := 0, kind := .data, ws := [3, 0, 0, 0, 0, 0, 0, 0], en := 1, openE := true, phase := 0, due := 0,
    act := false, ctx := 0, seg := 0, soff := 0, unc := false, lvl := 2, retAt := 0 }

/-- The engine at this level with this TID. -/
def atLevel (l : Nat) (tid : Word) (g : Engine) : Engine :=
  g.modRegs fun r => { r with st := setFld r.st 0 1 l, tid := tid }

/-! ## The instructions of an engine -/

theorem witness_ShortIntegerResults : ready (withE 143 g0) 143 1 = true ∧ (143 < 144 ∧ 15 < 16) := by decide

theorem witness_ImmediateIntegerResults : ready (withE 143 g0) 143 1 = true ∧ ready (withE 143 g0) 143 2 = true ∧
    (35 < 36 ∧ 255 < 256 ∧ 262143 < 262144) := by decide

/-- Multiply, a divisor that is not zero, and a divisor that is. -/
theorem witness_LongIntegerResults :
    (let s := withE 0 (regs [(15, 1)] g0); ready s 0 1 = true ∧ (s.e 0).w 15 ≠ 0) ∧
    (let s := withE 0 g0; ready s 0 1 = true ∧ (s.e 0).w 15 = 0 ∧ (s.e 0).pipe.divDue = none ∧ (s.e 0).pipe.dlPend = false ∧
      Instr.remu 0 3 15 ∈ [Instr.div 0 3 15, .divu 0 3 15, .rem 0 3 15, .remu 0 3 15]) := by decide

theorem witness_FloatResults : ready (withE 0 g0) 0 1 = true ∧ 14 % 2 = 0 ∧ 15 % 2 = 1 := by decide

theorem witness_RoundingIsExact : f36 ∈ [f36, f72] ∧ 0o377377777777 < 2 ^ f36.width ∧
    f36.decode 0o377377777777 = .fin false 0o777777777 (255 - 26) := by decide

theorem test_add_wraps : okay (exec (.add 0 1 2) (withE 0 (regs [(1, BitVec.allOnes 36), (2, 1)] g0))) (fun t =>
    (t.e 0).w 1 = 0 ∧ bit (t.e 0).regs.st 6 ∧ bit (t.e 0).regs.st 8 ∧ !bit (t.e 0).regs.st 9) = true := by decide

theorem test_mac_lands_later : okay (exec (.mac 0 1 2) (withE 0 (regs [(1, 3), (2, 5)] g0))) (fun t =>
    (t.e 0).regs.pl = 0 ∧ (final (t.e 0)).regs.pl = 15) = true := by decide

/-- 1.5 + 1.5 = 3 in F36. -/
theorem test_fadd : okay (exec (.fadd 0 1 2) (withE 0 (regs [(1, 0o177600000000), (2, 0o177600000000)] g0))) (fun t =>
    (final (t.e 0)).w 1 = 0o200200000000) = true := by decide

/-- The fences complete with nothing outstanding, and wait for a store and for an invalidation. -/
theorem witness_SynchronisingInstructions :
    (let s := withE 0 g0;
      ready s 0 1 = true ∧ (s.e 0).pipe.divDue = none ∧ (s.e 0).mem.invq = [] ∧ (s.e 0).mem.sb = [] ∧ (s.e 0).mem.fails = []) ∧
    (let s := withE 0 (g0.modMem fun m => { m with sb := [sb1], invq := [0] });
      ready s 0 1 = true ∧ (s.e 0).mem.sb ≠ [] ∧ (s.e 0).mem.invq ≠ [] ∧ (s.e 0).mem.ctlAns = none) := by decide

/-- General, debug and privileged registers, at M level and at U level. -/
theorem witness_SpecialRegisters :
    (let s := withE 0 g0;
      ready s 0 1 = true ∧ special s 0 0o67 = some 0 ∧ special s 0 15 = some 0 ∧ fld (s.e 0).regs.st 0 1 = 2 ∧ 1 ≤ fld (s.e 0).regs.st 0 1) ∧
    (let s := withE 0 (atLevel 0 0 g0); ready s 0 1 = true ∧ special s 0 0o41 = some 0) := by decide

theorem witness_DetectedFaults :
    (let s := withE 0 (atLevel 1 0 g0); readyBranch s 0 1 = true ∧ readyBranch s 0 2 = true ∧ fld (s.e 0).regs.st 0 1 < 2 ∧
      s.sys.attached = false) ∧
    (0o42 < 0o60 ∧ ¬ (0o70 ≤ 0o67) ∧ 255 < 256 ∧ 15 % 2 = 1) := by decide

theorem witness_ReadDeviceTime : ready (withE 0 g0) 0 1 = true ∧ 14 % 2 = 0 := by decide

/-- Breakpoint 0 at parcel 2 of the code, with a debugger attached. -/
def bpS : State :=
  let d : Tbl Word := [(0o60, place 2 2 1), (0o61, place 8 35 2)]
  let s := withE 0 { g0 with eff := { g0.eff with open_ := true, dbg := d } }
  { s with sys := { s.sys with attached := true } }

/-- In INTERLOCKED and in OPEN mode, and with a breakpoint at the delay slot. -/
theorem witness_BranchResults :
    (let s := withE 0 g0; readyBranch s 0 1 = true ∧ readyBranch s 0 2 = true ∧ (s.e 0).eff.open_ = false) ∧
    (let s := withE 0 ({ g0 with eff := { g0.eff with open_ := true } }); readyBranch s 0 1 = true ∧ readyBranch s 0 2 = true ∧
      (s.e 0).eff.open_ = true) ∧
    (ready bpS 0 2 = true ∧ (bpS.e 0).eff.open_ = true ∧ bpMatch bpS 0 2 = some 0) ∧
    (let s := bpS.modE 0 fun g => { g with eff := { g.eff with dbg := [(0o60, place 2 2 1), (0o61, place 8 35 1)] } };
      ready s 0 1 = true ∧ (s.e 0).eff.open_ = true ∧ bpMatch s 0 1 = some 0) := by decide

/-- A far transfer to the code segment and a return to it; SEGLD of the data segment, and of one that is absent. -/
theorem witness_FarTransfersAndSegld :
    (let s := withE 0 (regs [(1, 5), (2, mkSel 0 0), (3, mkSel 0 1)] g0);
      ready s 0 1 = true ∧ fld (s.e 0).regs.st 0 1 = 2 ∧
      (s.e 0).dcFind 0 (remapIdx s 0 0 0) = some codeD ∧ fld ((s.e 0).w 2) 0 11 = 0 ∧ fld ((s.e 0).w 2) 12 19 = 0 ∧
      fld codeD.d1 0 2 = 2 ∧ fld codeD.d1 6 17 = 0 ∧ fld ((s.e 0).w 1) 0 7 = 0 ∧
      (s.e 0).dcFind 0 (fld ((s.e 0).w 3) 12 19) = some dataD ∧
      ¬ (fld dataD.d1 0 2 = 0 ∨ fld dataD.d1 0 2 = 6 ∨ fld dataD.d1 0 2 = 7)) ∧
    (let x := { dataD with d1 := 0 };
     let s := withE 0 (regs [(3, mkSel 0 1)] (g0.modMem fun m => { m with dcache := [codeD, x] }));
      ready s 0 1 = true ∧ (s.e 0).dcFind 0 (fld ((s.e 0).w 3) 12 19) = some x ∧ fld x.d1 0 2 = 0) := by decide

theorem witness_RepeatResults : ready (withE 0 g0) 0 1 = true ∧ 256 * 15 + 255 ≠ 0 ∧ 256 * 0 + 0 = 0 := by decide

/-- A code fault at M level. -/
def exc5 : Exc := { vec := 5, cause := 1, seg := 0, off := 0, ret := 0, ds := false }

/-- The engine with the line of vector `vec` in its L1 instruction cache. -/
def withVec (vec : Nat) (g : Engine) : Engine := g.modMem fun m => { m with l1i := codeL (vec / 2) :: m.l1i }

theorem witness_ExceptionEntryTakesTheException :
    (let s := withE 143 (withVec 5 (g0.modPipe fun p => { p with exc := some exc5 }));
      (s.e 143).l1iFind ((fld codeD.d0 1 35 + 4 * 5) / 8) = some (codeL 2) ∧ (codeL 2).pois = false ∧ exc5.begun = false ∧ canEnter (s.e 143) = true ∧ (s.e 143).pipe.exc = some exc5 ∧ (s.e 143).pipe.pend = [] ∧ (s.e 143).pipe.divDue = none ∧
      (s.e 143).pipe.stLoss = [] ∧ fld (s.e 143).regs.st 0 1 ≤ 2 ∧ bit (s.e 143).regs.sad 15 = false ∧
      targetLevel s 143 5 = some 2 ∧ depthIn (s.e 143).regs.sad 2 < 15 ∧
      (s.e 143).dcFind 0 (remapIdx s 143 0 0) = some codeD ∧ vecOk s 2 5 codeD = true ∧
      okay (exec (.exceptionEntry 143) s) (fun t => (t.e 143).regs.pc = 0o50) = true) := by decide

/-- A double fault; the save area of the level full; a third fault, whose entry had begun with SAD.DF at 1. -/
theorem witness_FailedEntries :
    (let x : Exc := { exc5 with vec := 1 };
     let s := withE 0 (g0.modPipe fun p => { p with exc := some x });
      canEnter (s.e 0) = true ∧ (s.e 0).pipe.exc = some x ∧ x.begun = false ∧ (s.e 0).pipe.pend = [] ∧ (s.e 0).pipe.divDue = none ∧
      (s.e 0).pipe.stLoss = [] ∧ bit (s.e 0).regs.sad 15 = false ∧ (s.e 0).dcFind 0 (remapIdx s 0 0 0) = some codeD ∧
      vecOk s 2 1 codeD = true ∧ (s.e 0).l1iFind ((fld codeD.d0 1 35 + 4 * 1) / 8) = some (codeL 0) ∧ (codeL 0).pois = false) ∧
    (let s := withE 0 ((g0.modPipe fun p => { p with exc := some exc5 }).modRegs fun r => { r with sad := place 0 4 15 });
      canEnter (s.e 0) = true ∧ (s.e 0).pipe.exc = some exc5 ∧ bit (s.e 0).regs.sad 15 = false ∧ targetLevel s 0 5 = some 2 ∧
      15 ≤ depthIn (s.e 0).regs.sad 2 ∧ vecOk s 2 1 codeD = true ∧
      okay (exec (.exceptionEntry 0) s) (fun t => (t.e 0).regs.pc = 8 ∧ fld (t.e 0).regs.finfo 6 11 = 5) = true) ∧
    (let x : Exc := { exc5 with begun := true };
     let s := withE 0 ((g0.modPipe fun p => { p with exc := some x }).modRegs fun r => { r with sad := place 15 15 1 });
      canEnter (s.e 0) = true ∧ (s.e 0).pipe.exc = some x ∧ bit (s.e 0).regs.sad 15 = true ∧
      okay (exec (.exceptionEntry 0) s) (fun t => (t.e 0).run.inReset) = true) := by decide

/-- RETX with one frame at M level; from frame 15 after a double fault; and where there is no frame, its level is 3, its level
is higher than the engine's, or another TID stands in it; STEAL at U level. -/
def retS (l d : Nat) (st tid sad15 : Nat) : State :=
  let b := areaOf l + 16 * (if sad15 = 1 then 15 else d - 1);
  withE 0 (((atLevel l 0 g0).modRegs fun r => { r with
      sad := (if l = 2 then place 0 4 d else if l = 1 then place 5 9 d else place 10 14 d) ||| place 15 15 sad15 }).modMem fun m =>
    { m with near := [(b + 8, mkW (2 ^ 34 * st + 1)), (b + 12, mkW (2 ^ 9 * (tid + 1)))] })

theorem witness_ReturnsAndTheirFaults :
    (let s := retS 2 1 2 0 0;
      ready s 0 1 = true ∧ (s.e 0).pipe.divDue = none ∧ fld (s.e 0).regs.st 0 1 = 2 ∧ depthIn (s.e 0).regs.sad 2 = 1 ∧
      frameWord s 0 0o76000 8 = (s.e 0).nearGet (0o76000 + 8) ∧ fld ((s.e 0).nearGet (0o76000 + 8)) 0 1 = 2 ∧
      okay (exec (.retx 0 0) s) (fun t => (t.e 0).regs.tid = mkW (2 ^ 9) ∧ depthIn (t.e 0).regs.sad 2 = 0) = true) ∧
    (let s := retS 2 0 0 0 1;
      ready s 0 1 = true ∧ bit (s.e 0).regs.sad 15 = true ∧ (s.e 0).mem.nbad = [] ∧ fld ((s.e 0).nearGet (0o76360 + 8)) 0 1 ≤ 2) ∧
    (let s := retS 1 0 0 0 0; ready s 0 1 = true ∧ fld (s.e 0).regs.st 0 1 = 1 ∧ depthIn (s.e 0).regs.sad 1 = 0) ∧
    (let s := retS 1 15 3 0 0; ready s 0 1 = true ∧ depthIn (s.e 0).regs.sad 1 ≠ 0 ∧ fld ((s.e 0).nearGet (0o76400 + 16 * 14 + 8)) 0 1 = 3) ∧
    (let s := retS 1 1 2 0 0; ready s 0 1 = true ∧ 1 < fld ((s.e 0).nearGet (0o76400 + 8)) 0 1) ∧
    (let s := retS 0 1 0 7 0; ready s 0 1 = true ∧ fld ((s.e 0).nearGet (0o77000 + 8)) 0 1 = 0 ∧
      (s.e 0).nearGet (0o77000 + 12) ≠ (s.e 0).regs.tid) := by decide

/-- A word of the frame that the near store cannot correct: RETX goes on with a free value for it. -/
theorem test_retx_uncorrectable :
    (let s := (retS 2 1 2 0 0).modE 0 fun g => g.modMem fun m => { m with nbad := [0o76003] };
     (frameRead 0 (s.e 0) (s.e 0).nearGet 0o76000).getD 3 0 = Config.freeNear 0 3) := rfl

/-- A load from the near store, and one whose word stands in the store buffer. -/
theorem witness_LoadResults :
    (let s := withE 0 g0;
      ready s 0 2 = true ∧ checked s 0 0 1 7 1 .load = .ok 3 [7] ∧ checked s 0 0 1 0 2 .ldr = .ok 3 [0, 1] ∧ (s.e 0).mem.nbad = []) ∧
    (let s := withE 0 (g0.modMem fun m => { m with sb := [sb1] });
      ready s 0 2 = true ∧ checked s 0 0 0 0 1 .load = .ok 1 [0o200000] ∧ inCtl 0o200000 = false ∧
      (s.e 0).dataWords 0 [0o200000] = .ok [3] ∧
      okay (exec (.ld 0 4 0 0 0) s) (fun t => (final (t.e 0)).w 4 = 3) = true) := by decide

/-- LDR of a line whose ownership another engine is being given. -/
theorem witness_LoadResults_ldr :
    (let c : L1Line := { line := 0o20000, tenant := 0, st := .e, ws := [1, 2, 3, 4, 5, 6, 7, 8], pois := 0 };
     let s := (withE 0 (g0.modMem fun m => { m with l1d := [c] })).modHome fun h =>
        { h with txns := [⟨0o20000, .engine 7, 0, .rdx, [], some 0, false, 1⟩] };
      ready s 0 2 = true ∧ checked s 0 0 0 0 1 .ldr = .ok 1 [0o200000] ∧ inCtl 0o200000 = false ∧ writeUnderWay s 0 (0o200000 / 8) = true ∧
      (s.e 0).dataWords 0 [0o200000] = .ok [1] ∧
      okay (exec (.ldr 0 4 0 0 0) s) (fun t => (final (t.e 0)).w 4 = 1 ∧ (t.e 0).mem.resv = none) = true) := by decide

/-- Stores to the near store, to memory, and to the control window outside and in an activation. -/
theorem witness_StoreResults :
    (let s := withE 0 g0; ready s 0 2 = true ∧ checked s 0 0 1 7 1 .store = .ok 3 [7]) ∧
    (let s := withE 0 g0;
      ready s 0 2 = true ∧ checked s 0 0 0 6 2 .store = .ok 1 [0o200006, 0o200007] ∧ inCtl 0o200006 = false ∧
      (s.e 0).mem.sb.length + (s.e 0).sbNeed .data [0o200006, 0o200007] ≤ 8 ∧ (s.e 0).mem.sb = []) ∧
    (let s := withE 0 g0;
      ready s 0 2 = true ∧ checked s 0 0 2 0 1 .store = .ok 4 [ctlBase + relBlk] ∧ inCtl (ctlBase + relBlk) = true ∧
      bit (s.e 0).regs.tid 27 = false ∧ (s.e 0).mem.sb.length < 8) ∧
    (let s := withE 0 (g0.modRegs fun r => { r with tid := place 27 27 1 });
      ready s 0 2 = true ∧ checked s 0 0 2 0 1 .store = .ok 4 [ctlBase + relBlk] ∧ inCtl (ctlBase + relBlk) = true ∧
      bit (s.e 0).regs.tid 27 = true ∧ (s.e 0).mem.defer.length < 32) ∧
    (let s := withE 0 ((g0.modRegs fun r => { r with tid := place 27 27 1 }).modMem fun m =>
        { m with defer := List.replicate 32 ⟨0, [0], 2, 0, 2⟩ });
      ready s 0 2 = true ∧ checked s 0 0 2 0 1 .store = .ok 4 [ctlBase + relBlk] ∧ bit (s.e 0).regs.tid 27 = true ∧
      32 ≤ (s.e 0).mem.defer.length) ∧
    (let s := withE 0 (g0.modMem fun m => { m with sb := [sb1] });
      ready s 0 2 = true ∧ checked s 0 0 0 6 2 .store = .ok 1 [0o200006, 0o200007] ∧ sb1.takes (0o200006 / 8) 0 .data = true ∧
      (s.e 0).mem.sb.length + (s.e 0).sbNeed .data [0o200006, 0o200007] ≤ 8) := by decide

/-- STC near, to a line in M with the reservation held, and for an activation. -/
theorem witness_ConditionalStoreResults :
    (let s := withE 0 g0; ready s 0 2 = true ∧ checked s 0 0 1 7 1 .stc = .ok 3 [7] ∧ (s.e 0).mem.resv = none) ∧
    (let r : Reserv := { gran := granule base 0 false 0o200000, setAt := 0, awaited := [] };
     let x : L1Line := { line := 0o20000, tenant := 0, st := .m, ws := [1, 2, 3, 4, 5, 6, 7, 8], pois := 0 };
     let s := withE 0 (g0.modMem fun m => { m with resv := some r, l1d := [x] });
      r.awaited = [] ∧ ready s 0 2 = true ∧ checked s 0 0 0 6 2 .stc = .ok 1 [0o200006, 0o200007] ∧ (s.e 0).mem.sb = [] ∧ (s.e 0).mem.watch = [] ∧
      (s.e 0).l1Find 0o20000 = some x ∧ resvHeld s 0 false 0o200006 = true ∧
      (s.e 0).mem.sb.length + (s.e 0).sbNeed .data [0o200006, 0o200007] ≤ 8) ∧
    (let r : Reserv := { gran := granule base 0 false 0o200000, setAt := 0, awaited := [] };
     let s := withE 0 ((g0.modMem fun m => { m with resv := some r }).modRegs fun x => { x with tid := place 27 27 1 });
      ready s 0 2 = true ∧ checked s 0 0 0 7 1 .stc = .ok 1 [0o200007] ∧ resvHeld s 0 false 0o200007 = true ∧
      bit (s.e 0).regs.tid 27 = true) := by decide

/-- A limit fault; a store that no memory takes; and the order of the checks: not loaded, absent, another tenant's, level, type,
right, alignment, limit. -/
theorem witness_AccessChecks :
    (let s := withE 0 g0; ready s 0 2 = true ∧ checked s 0 0 0 8 1 .load = .fault 7 7 8) ∧
    (let s := withE 0 (g0.modMem fun m => { m with dcache := [codeD, { dataD with d0 := mkW (2 ^ 33) }] });
      ready s 0 2 = true ∧ checked s 0 0 0 0 1 .store = .failStore 0 ∧ checked s 0 0 0 0 2 .stc = .failStore 0) ∧
    (let s := withE 0 (g0.modMem fun m => { m with dcache := [codeD, { dataD with d0 := mkW (2 ^ 35) }] });
      ready s 0 2 = true ∧ checked s 0 0 0 0 1 .store = .fault 0o10 2 0) ∧
    (let s := base; bit (0 : Word) 20 = false ∧ segCheck s 0 0 2 0 .load 0 1 = .fault 7 1 0) ∧
    (let s := withE 0 g0;
      (s.e 0).dcFind 0 1 = some dataD ∧ bit (mkSel 0 1) 20 = true ∧ fld (mkSel 0 1) 0 11 = 0 ∧ fld (mkSel 0 1) 12 19 = 1 ∧
      segCheck s 0 (mkSel 0 1) 0 5 .load 0 1 = .fault 7 3 0 ∧ segCheck s 0 (mkSel 0 1) 2 0 .ldr 1 2 = .fault 7 8 1 ∧
      segCheck s 0 (mkSel 0 1) 2 0 .store 7 2 = .fault 7 7 8) ∧
    (let s := withE 0 (g0.modMem fun m => { m with dcache := [{ dataD with d1 := place 0 2 2 ||| place 18 19 1 }] });
      segCheck s 0 (mkSel 0 1) 0 0 .load 0 1 = .fault 7 4 0 ∧ segCheck s 0 (mkSel 0 1) 1 0 .load 0 1 = .fault 7 5 0 ∧
      segCheck s 0 (mkSel 0 1) 2 0 .load 0 1 = .fault 7 6 0) := by decide

/-! ## Activations -/

/-- An activation of context 5 of tenant 9 at boundary 4, whose code is at the boot SRAM's descriptor. -/
def act5 : Entry :=
  { ctx := 5, kind := .fresh, tenant := 9, sealed := false, n := 4, rel := 100, deadline := 10 ^ 9, remain := 1000,
    carry := ⟨[], [], 0⟩, recw := [place 0 11 9 ||| place 17 18 1, maskW 8 31, 0, 0, 0, 0, 0, place 8 35 64, 0, 0, 0, 0, 0] }

/-- An engine that runs it at S level, with the frame of the context switch at depth 1. -/
def actG : Engine :=
  ((g0.modRegs fun r => { r with tid := place 0 11 9 ||| place 12 25 5 ||| place 27 27 1, sad := place 0 4 1 }).modRun fun r =>
    { r with entry := some act5 }).modMem fun m => { m with near := [(0o76011, place 8 35 77)] }

/-- An engine at U level in that activation, whose code segment is the tenant's. -/
def codeT : DcEntry := { codeD with tenant := 9, d1 := codeD.d1 ||| place 6 17 9 }

theorem witness_CommitAndTaskInstructions :
    (let s := withE 3 actG;
      ready s 3 1 = true ∧ bit (s.e 3).regs.tid 27 = true ∧ (s.e 3).pipe.divDue = none) ∧
    (let s := withE 3 g0;
      ready s 3 1 = true ∧ bit (s.e 3).regs.tid 27 = false ∧ fld (s.e 3).regs.st 0 1 = 2 ∧ (s.e 3).pipe.divDue = none ∧
      (s.e 3).mem.sb = [] ∧ (s.e 3).mem.fails = [] ∧ (s.e 3).mem.ctlAns = none) ∧
    (let s := withE 3 (g0.modMem fun m => { m with ctlAns := some [] });
      ready s 3 1 = true ∧ (s.e 3).mem.ctlAns ≠ none) ∧
    (let s := withE 3 (actG.modRun fun r => { r with cphase := .draining });
      (s.e 3).run.cphase = .draining ∧ (s.e 3).mem.sb = [] ∧ (s.e 3).mem.fails = [] ∧ engineDown s 3 = false ∧
      (s.e 3).pipe.dlPend = false ∧ deadlineGone s (s.e 3) = false ∧
      okay (exec (.commitBegins 3 7) s) (fun t => (t.e 3).run.cphase = .locking 7) = true) ∧
    (let s := withE 3 ((actG.modRun fun r => { r with cphase := .draining }).modMem fun m => { m with fails := [⟨1, 0, 0⟩] });
      (s.e 3).mem.sb = [] ∧ (s.e 3).mem.fails ≠ [] ∧
      okay (exec (.commitBegins 3 7) s) (fun t => (t.e 3).pipe.exc.map Exc.vec = some 0o12) = true) ∧
    (let s := (withE 3 (actG.modRun fun r => { r with cphase := .draining })).modNet fun n => { n with devTime := 10 ^ 9 };
      (s.e 3).mem.sb = [] ∧ engineDown s 3 = false ∧ deadlineGone s (s.e 3) = true ∧ (s.e 3).run.entry = some act5 ∧
      bit (s.e 3).regs.tid 27 = true ∧ s.rel.waiting = [] ∧
      okay (exec (.commitBegins 3 7) s) (fun t => (t.e 3).pipe.exc.map Exc.vec = some 3 ∧ t.cg (rCtx 5 28) = 1) = true) ∧
    (let w : Stall := ⟨.commit 3 0, .locks [], true⟩;
     let s := withE 3 (actG.modRun fun r => { r with cphase := .locking 7, stall := some w });
      (s.e 3).run.stall = some w ∧ (s.e 3).run.entry = some act5 ∧ noticeBusy s 5 = false ∧ engineDown s 3 = false ∧ (s.e 3).mem.defer = [] ∧
      okay (exec (.commitPoint 3 0) s) (fun t =>
        (t.e 3).regs.pc = 77 ∧ t.cg (rCtx 5 27) = 1 ∧ (t.e 3).run.entry = none) = true) := by decide +kernel

/-- A YIELD; a search that finds nothing; and one that claims a fresh and a resumed entry. -/
def stealG : Engine := g0.modRun fun r => { r with stealing := true }

def withDeque (x : Entry) (s : State) : State :=
  { s with rel := { s.rel with deques := [(0, [x])] } }.csf (rTen 9 0) 0 1 1

theorem witness_HandingActivationsOn :
    (let s := withE 3 actG;
      ready s 3 1 = true ∧ bit (s.e 3).regs.tid 27 = true ∧ (s.e 3).pipe.divDue = none ∧ (s.e 3).run.entry = some act5 ∧
      (s.e 3).mem.watch = [] ∧ (s.e 3).mem.defer = [] ∧
      okay (exec (.yieldI 3 0) s) (fun t => ctxState t 5 = 5 ∧ (t.e 3).regs.pc = 77) = true) ∧
    (let s := withE 3 stealG;
      (s.e 3).run.stealing = true ∧ (s.e 3).run.stall = none ∧ (s.e 3).pipe.exc = none ∧ (s.e 3).run.halted = false ∧
      (s.e 3).run.inService = true ∧ (s.e 3).run.inReset = false ∧ bit (s.e 3).regs.tid 27 = false ∧
      searchFirst s 3 (stealOrder s 3) = none ∧ bit (s.cg (rIPEND 3)) 2 = false) := by decide +kernel

theorem witness_searchClaims :
    (let s := withDeque act5 (withE 3 stealG);
      searchFirst s 3 (stealOrder s 3) = some (0, act5) ∧
      okay (exec (.stealSearch 3 0) s) (fun t =>
        (t.e 3).w 0 = 5 ∧ (t.e 3).w 3 = 0 ∧ (t.e 3).regs.pc = 64 ∧ t.deque 0 = []) = true) := by decide +kernel

theorem witness_searchClaims_resumed :
    (let x : Entry := { act5 with kind := .resumed };
     let s := withDeque x (withE 3 stealG);
      searchFirst s 3 (stealOrder s 3) = some (0, x) ∧ x.kind = .resumed) := by decide +kernel

/-- The engine's events: a yielded entry with settled stores; the idle loop; a reservation; a machine check; a spent budget; a
result in flight. -/
theorem witness_EngineEvents :
    (let s := { withE 3 g0 with rel := { Rel.reset with yielded := [(3, act5)] } };
      s.rel.yielded.find? (fun p => p.2.ctx = 5) = some (3, act5) ∧ (s.e 3).mem.sb = [] ∧
      (s.deque (fld (act5.recw.getD 1 0) 0 7)).length < 64 ∧
      okay (exec (.resumedEntryClaimable 5) s) (fun t => t.rel.yielded = []) = true) ∧
    (let s := withE 3 ((g0.modRun fun r => { r with idleWait := true }).modRegs fun r => { r with pc := 1 });
     let s1 := (s.setE 3 (((s.e 3).modRun fun r => { r with idleWait := false, pearl := false }).modRegs fun r =>
        { r with pc := r.pc - 1 })).csf (rIPEND 3) 2 2 0;
      (s.e 3).run.idleWait = true ∧ 3 / 12 ∉ s.sys.slate ∧ ready s1 3 1 = true ∧ fld (s.e 3).regs.st 0 1 = 2 ∧
      okay (exec (.workWaitTimeout 3) s) (fun t => (t.e 3).run.stealing) = true) ∧
    (let r : Reserv := ⟨granule base 0 false 8, 0, []⟩;
     let s := withE 3 (g0.modMem fun m => { m with resv := some r });
      (s.e 3).mem.resv = some r) ∧
    (let s := (withE 3 g0).csf (rIPEND 3) 0 0 1;
      bit (s.cg (rIPEND 3)) 0 = true ∧ (s.e 3).run.inService = true ∧ (s.e 3).run.inReset = false ∧ (s.e 3).run.pearl = false ∧
      (s.e 3).run.halted = false ∧ okay (exec (.machineCheckHoldTimeout 3) s) (fun t => t.wel.failed = [⟨3, 4⟩]) = true) ∧
    (let s := withE 3 (actG.modRun fun r => { r with use := 1000 });
      (s.e 3).run.entry = some act5 ∧ bit (s.e 3).regs.tid 27 = true ∧ act5.remain ≤ ((s.e 3).run.use : Int) ∧
      (s.e 3).pipe.budgetRaised = false ∧ okay (exec (.budgetExhausted 3) s) (fun t => (t.e 3).pipe.budgetPend) = true) ∧
    (let p : Pend := ⟨.w 4, maskW 0 35, 6, 0, 9, .divider, none⟩;
     let s := withE 3 (g0.modPipe fun q => { q with pend := [p] });
      (s.e 3).pipe.pend = [p] ∧ p.unit ≠ .none ∧ (s.e 3).run.stall = none ∧ (s.e 3).pipe.clk ≤ p.at_ ∧
      okay (exec (.longOpLanding 3) s) (fun t => (t.e 3).w 4 = 6) = true) := by decide +kernel

/-! ## Coherence -/

def ws8 : List Word := [1, 2, 3, 4, 5, 6, 7, 8]

/-- A committed entry of a line. -/
def hl (st : DirState) (sh own : Nat) : HLine :=
  { st := st, sharers := sh, owner := own, dirty := false, poison := false, busy := false, lock := false, ws := ws8,
    chk := rsCheck ws8, way := 0, age := 0 }

/-- A tentative line of context 5. -/
def tl8 : TLine :=
  { line := 8, ctx := 5, tenant := 9, ws := ws8, chk := rsCheck ws8, poison := false, en := 1, holder := none,
    lock := false, way := 0 }

/-- A device whose home slices hold line 8 as given. -/
def withLine (x : HLine) (s : State) : State := s.modHome fun h => { h with lines := [(8, some x)] }

/-- Engine 143 outside an activation, and in one. -/
def homeS (x : HLine) : State := withLine x (withE 143 g0)
def homeA (x : HLine) : State := withLine x (withE 143 actG)

theorem quiet_8 (st : DirState) (sh own : Nat) (g : Engine) : quiet (withLine (hl st sh own) (withE 143 g)) 8 := by
  refine ⟨rfl, ?_, ?_⟩ <;> intro t ht <;> exact absurd ht (List.not_mem_nil)

theorem sound_8 (st : DirState) (sh own : Nat) (s : State) : sound (withLine (hl st sh own) s) 8 (hl st sh own) := by
  refine ⟨rfl, rfl, rfl⟩

/-- A line in I for a load outside and in an activation; in S; in E; RDC; RDO, WRL and WRM accepted, and refused in a locked
window. -/
def lkw8 (s : State) : State := ((s.cs (rLKW 0) (place 0 0 1)).cs (rLKW 0 + 1) (place 1 35 64)).cs (rLKW 0 + 2) 8

theorem witness_HomeReadsAndUncached :
    (quiet (homeS (hl .i 0 0)) 8 ∧ sound (homeS (hl .i 0 0)) 8 (hl .i 0 0)) ∧
    (let s := homeS (hl .i 0 0); fld (s.e 143).regs.tid 0 11 = 0 ∧ wayUsable s 0 8 0 = true ∧ inCtl (8 * 8) = false ∧
      agTenant s (.mover 11) = 0 ∧ readRefused s (.mover 11) 8 = false ∧ inBootSram (8 * (ctlBase / 8)) = false ∧
      inCtl (8 * (ctlBase / 8)) = true ∧ readRefused s (.mover 11) (ctlBase / 8) = true ∧
      okay (exec (.rds 143 (ctlBase / 8)) s) (fun t => t.home.net = [.fail (.engine 143) (ctlBase / 8) 2]) = true) ∧
    (let s := (homeA (hl .s 1 0)).modHome fun h => { h with tents := [tl8] };
      s.home.tents = [tl8] ∧ tl8.ctx = fld (s.e 143).regs.tid 12 25 ∧ wayUsable s 9 8 0 = true ∧ fld (s.e 143).regs.tid 0 11 = 9 ∧
      okay (exec (.rds 143 8) s) (fun t => t.home.tents = [{ tl8 with holder := some 143 }]) = true) ∧
    (let s := homeS (hl .i 0 0); bit (s.e 143).regs.tid 27 = false ∧ lockedWin s 64 = false ∧ s.home.tents = [] ∧
      agOk (.mover 11) = true ∧ writeRefused s (.mover 11) 8 = false ∧
      okay (exec (.rds 143 8) s) (fun t => (t.hl 8).map (fun y => (y.st, y.owner)) = some (.e, 143)) = true ∧
      okay (exec (.wrl (.mover 11) 8 ws8) s) (fun t => (t.hl 8).map HLine.dirty = some true) = true) ∧
    (let s := homeA (hl .i 0 0); bit (s.e 143).regs.tid 27 = true ∧
      okay (exec (.rds 143 8) s) (fun t => (t.hl 8).map (fun y => (y.st, y.sharers)) = some (.s, 2 ^ 11)) = true) ∧
    (let s := homeS (hl .s 1 0); okay (exec (.rds 143 8) s) (fun t => (t.hl 8).map HLine.sharers = some (1 + 2 ^ 11)) = true) ∧
    (let s := homeS (hl .e 0 5); okay (exec (.rds 143 8) s) (fun t => t.home.net = [.fwds 5 8]) = true) ∧
    (let s := lkw8 (homeS (hl .i 0 0)); writeRefused s (.mover 11) 8 = true ∧
      okay (exec (.wrl (.mover 11) 8 ws8) s) (fun t => t.home.net = [.fail (.mover 11) 8 2]) = true) :=
  ⟨⟨quiet_8 _ _ _ _, sound_8 _ _ _ _⟩, by decide +kernel, by decide +kernel, by decide +kernel, by decide +kernel, by decide +kernel,
    by decide +kernel, by decide +kernel⟩

/-- RDX in I, S and M; UPG alone and with another sharer; MOD; the last IACK; FDATA and FNONE of an owner. -/
def txnS (st : DirState) (sh own : Nat) (tx : Txn) (m : Msg) : State :=
  (homeS (hl st sh own)).modHome fun h => { h with txns := [tx], net := [m] }

theorem witness_HomeOwnershipAndReplies :
    (quiet (homeS (hl .s 1 0)) 8 ∧ sound (homeS (hl .s 1 0)) 8 (hl .s 1 0)) ∧
    (let s := homeS (hl .i 0 0); lockedWin s 64 = false ∧
      okay (exec (.rdx 143 8) s) (fun t => (t.hl 8).map (fun y => (y.st, y.owner)) = some (.m, 143)) = true) ∧
    (let s := homeS (hl .s 2049 0); sharerEngs s (hl .s 2049 0) ≠ [] ∧ (sharerEngs s (hl .s 2049 0)).filter (· ≠ 143) ≠ [] ∧
      enHas 2049 (143 / 12) = true) ∧
    (let s := (homeS (hl .s 2048 0)).modWel fun w => { w with clusterDead := [] };
      enHas 2048 (143 / 12) = true ∧ sharerEngs s (hl .s 2048 0) ≠ []) ∧
    (let s := homeS (hl .m 0 5); okay (exec (.rdx 143 8) s) (fun t => t.home.net = [.fwdx 5 8]) = true) ∧
    (let s := homeS (hl .e 0 143); okay (exec (.modI 143 8) s) (fun t => (t.hl 8).map HLine.st = some .m) = true) ∧
    (let tx : Txn := ⟨8, .engine 143, 0, .rdx, [11], none, false, 0⟩;
     let s := txnS .s 2048 0 tx (.iack 11 8);
      s.home.txns = [tx] ∧ s.home.net = [.iack 11 8] ∧ okay (exec (.iack 11 8) s) (fun t => t.home.txns = []) = true) ∧
    (let tx : Txn := ⟨8, .engine 143, 0, .rds none false, [], some 5, false, 0⟩;
     let s := txnS .m 0 5 tx (.fdata 5 8 ws8 0 true);
      s.home.net = [.fdata 5 8 ws8 0 true] ∧ okay (exec (.fdata 5 8) s) (fun t => t.home.txns = []) = true ∧
      okay (exec (.fnone 5 8) (txnS .m 0 5 tx (.fnone 5 8))) (fun t => t.home.txns = []) = true) :=
  ⟨⟨quiet_8 _ _ _ _, sound_8 _ _ _ _⟩, by decide +kernel, by decide +kernel, by decide +kernel, by decide +kernel, by decide +kernel, by decide +kernel, by decide +kernel⟩
/-! ## Homes, engines and requesters -/

/-- UPG by the only sharer: the other engines of the cluster are out of service. -/
def alone : State := (List.range 11).foldl (fun s i => s.modE (132 + i) fun g => g.modRun fun r => { r with inService := false })
  (homeS (hl .s 2048 0))

theorem witness_upgAlone : (sharerEngs alone (hl .s 2048 0)).filter (· ≠ 143) = [] ∧ enHas 2048 (143 / 12) = true ∧
    lockedWin alone 64 = false ∧
    okay (exec (.upg 143 8) alone) (fun t => (t.hl 8).map HLine.st = some .m) = true := by decide +kernel

/-- A tentative write that covers the line, and one of one word; a watch; a write-back; a lock; DISCARD; PUBLISH. -/
theorem witness_HomeTentativeLines :
    quiet (homeS (hl .m 0 143)) 8 ∧
    (let s := (withE 143 actG).modHome fun h => { h with tents := [tl8], net := [.wrt 143 8 5 9 255 ws8] };
      s.home.net = [.wrt 143 8 5 9 255 ws8] ∧ s.home.tents = [tl8] ∧ tl8.lock = false ∧ lockedWin s 64 = false ∧
      okay (exec (.wrt 143 8) s) (fun t => t.home.tents = [{ tl8 with en := 255, holder := some 143 }]) = true) ∧
    (let r : Reserv := ⟨granule base 0 false 64, 0, [8]⟩;
     let s := (withE 143 (g0.modMem fun m => { m with resv := some r })).modHome fun h => { h with net := [.watch 143 8 0] };
      (s.e 143).mem.resv = some r ∧ 8 ∈ r.gran.lines ∧
      okay (exec (.watch 143 8 0) s) (fun t => t.home.watches = [⟨143, 0, 8⟩]) = true) ∧
    (let s := (homeS (hl .m 0 143)).modHome fun h => { h with net := [.wbk 143 8 ws8 0] };
      s.home.net = [.wbk 143 8 ws8 0] ∧ s.home.tents = [] ∧
      okay (exec (.wbk 143 8) s) (fun t => (t.hl 8).map HLine.st = some .i) = true) ∧
    (let w : Stall := ⟨.commit 143 0, .locks [homeOf 8], true⟩;
     let s := (withE 143 (actG.modRun fun r => { r with stall := some w, cphase := .locking 0 })).modHome fun h =>
        { h with tents := [tl8], net := [.req (.engine 143) 8 9 (.lock 5)] };
      (s.e 143).run.stall = some w ∧ homeOf 8 ∈ [homeOf 8] ∧ tl8.ctx = fld (s.e 143).regs.tid 12 25 ∧ s.hl 8 = none ∧ homeOf 8 < 12 ∧
      okay (exec (.lock 143 (homeOf 8)) s) (fun t => t.home.tents = [{ tl8 with lock := true }]) = true) ∧
    (let s := base.modHome fun h => { h with tents := [{ tl8 with holder := some 2 }] };
      okay (exec (.discard 5 (homeOf 8)) s) (fun t => t.home.tents = [] ∧ t.home.net = [.inv 2 8 true]) = true) ∧
    (let tl := { tl8 with lock := true };
     let s := (homeS (hl .i 0 0)).modHome fun h => { h with tents := [tl], net := [.publish 143 5 (homeOf 8)] };
      s.home.net = [.publish 143 5 (homeOf 8)] ∧ s.home.tents = [tl] ∧ s.hl 8 = some (hl .i 0 0) ∧ lockedWin s 64 = false ∧
      okay (exec (.publish 143 (homeOf 8)) s) (fun t => t.home.tents = [] ∧ (t.hl 8).map HLine.st = some .s) = true) :=
  ⟨quiet_8 _ _ _ _, by decide +kernel, by decide +kernel, by decide +kernel, by decide +kernel, by decide +kernel,
    by decide +kernel⟩

/-- A line of an L1 data cache. -/
def l1 (st : L1State) : L1Line := { line := 8, tenant := 0, st := st, ws := ws8, pois := 0 }

def engS (f : EMem → EMem) (ms : List Msg) : State := (withE 143 (g0.modMem f)).modHome fun h => { h with net := ms }

theorem witness_EngineAnswersTheHome :
    (let s := engS (fun m => { m with l1d := [l1 .m] }) [.fwds 143 8];
      (s.e 143).l1Any 8 = some (l1 .m) ∧ heldBack (s.e 143) 8 = false ∧ s.home.net = [.fwds 143 8] ∧
      okay (exec (.fwds 143 8) s) (fun t => t.home.net = [.fdata 143 8 ws8 0 true]) = true) ∧
    (let s := engS (fun m => { m with l1d := [l1 .m] }) [.rcl 143 8];
      okay (exec (.rcl 143 8) s) (fun t => t.home.net = [.wbk 143 8 ws8 0]) = true) ∧
    (let s := engS (fun m => { m with l1d := [l1 .s] }) [.rcl 143 8];
      okay (exec (.rcl 143 8) s) (fun t => t.home.net = [.iack 11 8]) = true) ∧
    (let s := engS id [.fwdx 143 8];
      (s.e 143).l1Any 8 = none ∧ okay (exec (.fwdx 143 8) s) (fun t => t.home.net = [.fnone 143 8]) = true) ∧
    (let s := engS id [.inv 143 8 false];
      heldBack (s.e 143) 8 = false ∧ (s.e 143).mem.invq.length < 16 ∧
      okay (exec (.inv 143 8) s) (fun t => (t.e 143).mem.invq = [8]) = true) ∧
    (let s := engS (fun m => { m with invq := [8], l1d := [l1 .s] }) [];
      (s.e 143).mem.invq = [8] ∧ (s.e 143).run.stall = none ∧
      okay (exec (.invApply 143) s) (fun t => (t.e 143).mem.l1d = []) = true) ∧
    (let r : Reserv := ⟨granule base 0 false 64, 0, []⟩;
     let w : WGran := ⟨1, granule base 0 false 64, 3, 5⟩;
     let s := engS (fun m => { m with resv := some r, watch := [w] }) [.rsvl 143 8];
      8 ∈ r.gran.lines ∧ granHas w 8 = true ∧
      okay (exec (.rsvl 143 8) s) (fun t => (t.e 143).mem.fails = [⟨2, 3, 5⟩]) = true) := by decide +kernel

/-- A store-buffer entry of line 8. -/
def sb8 (ph : Nat) : SbEntry := { sb1 with line := 8, phase := ph, due := 5 }

theorem witness_RequesterReplies :
    (let s := engS id [.data (.engine 143) 8 .s ws8 0 0];
      8 ∉ (s.e 143).mem.invq ∧ (s.e 143).run.stall = none ∧ (s.e 143).mem.sb = [] ∧
      okay (exec (.dataM (.engine 143) 8 0) s) (fun t => ((t.e 143).l1Any 8).map L1Line.st = some .s) = true) ∧
    (let s := engS id [.data (.engine 143) 8 (.t 9) ws8 0 0];
      ¬ (bit (s.e 143).regs.tid 27 = true ∧ fld (s.e 143).regs.tid 12 25 = 9) ∧ (s.e 143).mem.sb = [] ∧
      okay (exec (.dataM (.engine 143) 8 0) s) (fun t => (t.e 143).l1Any 8 = none ∧ t.home.net = []) = true) ∧
    okay (exec (.dataM .mgmt 8 0) (engS id [.data .mgmt 8 .rec_ ws8 0 0])) (fun t => t.answer = .read ws8) = true ∧
    (let s := engS (fun m => { m with sb := [sb8 2] }) [.ack (.engine 143) 8 false];
      (s.e 143).mem.sb = [sb8 2] ∧ (sb8 2).unc = false ∧
      okay (exec (.ack (.engine 143) 8 0) s) (fun t => (t.e 143).mem.sb = []) = true) ∧
    (let s := engS (fun m => { m with sb := [sb8 1] }) [.fail (.engine 143) 8 2];
      okay (exec (.fail (.engine 143) 8 0) s) (fun t => (t.e 143).mem.fails = [⟨2, 0, 0⟩]) = true) ∧
    (let m : Msg := .req (.engine 143) 8 0 .rdx;
     let tk : Ticket := ⟨8, .engine 143, 1, m, 9⟩;
     let s := (engS id [.nak (.engine 143) 8]).modHome fun h => { h with retry := [tk] };
     let u := (engS id []).modHome fun h => { h with retry := [tk] };
      okay (exec (.nak (.engine 143) 8) s) (fun t => t.home.retry.map Ticket.due = [1366]) = true ∧
      u.home.retry = [tk] ∧ tk.msg ∉ u.home.net ∧
      okay (exec (.nakRetry (.engine 143) 8) u) (fun t => t.home.net = [m] ∧ t.net.devTime = 9) = true) := by decide +kernel

theorem witness_StoreBufferDrains :
    (let s := engS (fun m => { m with sb := [sb8 0], l1d := [l1 .m] }) [];
      (s.e 143).mem.sb = [sb8 0] ∧ (s.e 143).run.stall = none ∧ reqOut s (.engine 143) 8 = false ∧
      (s.e 143).l1Any 8 = some (l1 .m) ∧
      okay (exec (.storeDrain 143 0) s) (fun t => ((t.e 143).l1Any 8).map L1Line.ws = some [3, 2, 3, 4, 5, 6, 7, 8]) = true) ∧
    (let s := engS (fun m => { m with sb := [sb8 0] }) [];
      (s.e 143).l1Any 8 = none ∧
      okay (exec (.storeDrain 143 0) s) (fun t => t.home.net = [.req (.engine 143) 8 0 .rdx]) = true) ∧
    okay (exec (.storeAcknowledged 143 0) (engS (fun m => { m with sb := [sb8 3] }) [])) (fun t => (t.e 143).mem.sb = []) = true ∧
    okay (exec (.storeNoAnswer 143 0) (engS (fun m => { m with sb := [sb8 1] }) [])) (fun t =>
      (t.e 143).mem.fails = [⟨1, 0, 0⟩] ∧ t.net.devTime = 5) = true := by decide +kernel

/-- Five stalls: of a register read, of SEGINV, of a microword, of a padded load, and of an STC. -/
def stalled (w : Stall) (g : Engine) : State := withE 143 (g.modRun fun r => { r with stall := some w })

def ldS : Instr := .ld 143 4 0 2 0

theorem witness_StallsEndByCarryingOut :
    (let s := stalled ⟨ldS, .ctl relBlk false, true⟩ g0;
      (s.e 143).run.stall = some ⟨ldS, .ctl relBlk false, true⟩ ∧ (bit (s.e 143).regs.tid 26 && bit (s.e 143).regs.tid 27) = false ∧
      (s.e 143).mem.ctlAns = none ∧ (cwRead (readClears s (.engine 143)) relBlk false s).1 = some [0] ∧
      ((cwRead (readClears s (.engine 143)) relBlk false s).2.e 143).mem.ctlAns = none ∧
      okay (exec (.controlWindowLoadAnswer 143 5) s) (fun t => (t.e 143).regs.pc = 2 ∧ (t.e 143).run.stall = none) = true) ∧
    (let s := stalled ⟨.seginv 143 0 0, .seginv 0 1, true⟩ g0;
      okay (exec (.seginvComplete 143 5) s) (fun t => (t.e 143).dcFind 0 1 = none ∧ (t.e 143).regs.pc = 1) = true) ∧
    (let s := stalled ⟨.cust 143 3 0 1, .micro 1792, true⟩ g0; (s.wel.failed = [] ∧
      (s.e 143).run.stall = some ⟨.cust 143 3 0 1, .micro 1792, true⟩)) ∧
    (let s := stalled ⟨.ld 143 4 0 1 0, .padded 9 0o22 (.line 8), true⟩ g0;
      okay (exec (.paddedStallEnd 143) s) (fun t => (t.e 143).regs.pc = 2 ∧ (t.e 143).run.stall = none) = true) ∧
    (let s := stalled ⟨.stc 143 4 0 0 0, .stcLine 8, true⟩ (g0.modMem fun m => { m with l1d := [l1 .m] });
      (s.e 143).l1Find 8 = some (l1 .m)) ∧
    (let s := stalled ⟨.stc 143 4 0 0 0, .stcLine 8, true⟩ g0;
      (s.e 143).l1Find 8 = none ∧ (s.e 143).mem.ctlAns = none ∧ reqOut s (.engine 143) 8 = false) := by decide +kernel

/-- A microword that ends its routine and adds SRCA and SRCB into W[a]. -/
def addWord : Microword :=
  let m : Nat := 8 * 2 ^ 92 + 2 ^ 73 + 16 * 2 ^ 68 + 17 * 2 ^ 63 + 16 * 2 ^ 58
  BitVec.ofNat 96 (m + microChk (BitVec.ofNat 96 m))

theorem witness_ControlStore :
    (let s := withE 143 { regs [(1, 3), (2, 5)] g0 with
        cstore := { CStore.reset with bank0 := [(0, addWord)], dir0 := [(31, place 0 0 1)] } };
     let m := microAt (s.e 143) (custBank s 143) (1792 + fld (custDir s 143 31) 1 8);
      ready s 143 1 = true ∧ bit (custDir s 143 31) 0 = true ∧ microOk false m = true ∧ mfld m 0 3 = 8 ∧ mfld m 19 22 = 1 ∧
      mfld m 23 27 = 16 ∧ mfld m 28 32 = 17 ∧ mfld m 33 37 = 16 ∧ mfld m 38 41 = 0 ∧ mfld m 68 71 = 0 ∧
      okay (exec (.cust 143 31 1 2) s) (fun t => (final (t.e 143)).w 1 = 8) = true) ∧
    (let s := withE 143 { g0 with cstore := { CStore.reset with vendor := [(1791, 1)], bank1 := [(255, 1)] } };
      microOk true (microRead s 143 1791).1 = false ∧ microOk false (microRead s 143 2303).1 = false ∧
      okay (exec (.cstoreScrub 143 1791) s) (fun t => (t.e 143).cstore.vendor = [] ∧ bit (t.cg (rMCAUSE 143)) 0) = true) ∧
    (let s := withE 143 g0;
      (s.e 143).run.inService = true ∧
      okay (exec (.nearStoreScrub 143 32767) s) (fun t => (t.e 143).mem.nbad = [32767]) = true) := by decide +kernel

/-- Where every vendor microword is as at reset, no routine fails its checks, wherever it lies. -/
theorem blank_routine {s : State} {e : Nat} (h : (s.e e).cstore.vendor = []) (hit : Bool) (i : Instr) : routineOk s e hit i := by
  rw [routineOk, vendorBad, List.find?_eq_none]
  intro a _
  rw [h]
  exact (by decide +kernel : ¬ (!microOk true (tget 0 [] 0)) = true)

/-- A vendor region of which each word fails its check. -/
def badWords (m n : Nat) : Tbl Microword := (List.range' m n).map fun i => (i, 1)

theorem tget_badWords (m n a : Nat) (h1 : m ≤ a) (h2 : a < m + n) : tget 0 (badWords m n) a = 1 := by
  induction n generalizing m with
  | zero => omega
  | succ n ih =>
    simp only [badWords, List.range'_succ, List.map_cons, tget]
    split
    · rfl
    · exact ih (m + 1) (by omega) (by omega)

def badG : Engine := { g0 with cstore := { CStore.reset with vendor := badWords 0 1792 } }

/-- A microcoded instruction of an engine with such a region meets a failing microword, wherever its routine lies. -/
theorem witness_VendorWordFails : ready (withE 143 badG) 143 1 = true ∧ fld (badG.regs.st) 0 1 = 2 ∧
    ∀ hit i, 0 < (vendorRoutine hit i).2 → ∃ addr, vendorBad (withE 143 badG) 143 (vendorRoutine hit i) = some addr := by
  refine ⟨by decide +kernel, by decide +kernel, fun hit i h => ?_⟩
  have hs : ((withE 143 badG).e 143).cstore.vendor = badWords 0 1792 := rfl
  obtain ⟨n, hn⟩ := Nat.exists_eq_succ_of_ne_zero (Nat.ne_of_gt h)
  refine ⟨Config.vendorAddr (vendorRoutine hit i).1 0 % 1792, ?_⟩
  rw [vendorBad, hn, hs, List.range_succ_eq_map, List.map_cons, List.find?_cons_of_pos]
  rw [tget_badWords _ _ _ (Nat.zero_le _) (by have := Nat.mod_lt (Config.vendorAddr (vendorRoutine hit i).1 0) (by decide : 1792 > 0); omega)]
  decide +kernel

/-- The line of the data segment's first words, in the L1 data cache. -/
def dataL (st : L1State) : L1Line := { l1 st with line := 0o20000 }

theorem witness_StalledInstructionsComplete :
    (let s := stalled ⟨ldS, .ctl relBlk false, true⟩ g0; HoldsInEx 143 ldS (.ctl relBlk false) s) ∧
    (let s := stalled ⟨ldS, .ctl relBlk false, true⟩ g0;
      (bit (s.e 143).regs.tid 26 && bit (s.e 143).regs.tid 27) = false ∧ (cwRead (readClears s (.engine 143)) relBlk false s).1 = some [0] ∧
      checked (cwRead (readClears s (.engine 143)) relBlk false s).2 143 0 2 0 1 .load = .ok 4 [ctlBase + relBlk] ∧ inCtl (ctlBase + relBlk) = true) ∧
    (let i := Instr.ld 143 4 0 0 0;
     let s := stalled ⟨i, .padded 9 0o22 (.line 0o20000), true⟩ (g0.modMem fun m => { m with l1d := [dataL .s] });
      HoldsInEx 143 i (.padded 9 0o22 (.line 0o20000)) s) ∧
    (let s := stalled ⟨.ld 143 4 0 0 0, .padded 9 0o22 (.line 0o20000), true⟩ (g0.modMem fun m => { m with l1d := [dataL .s] });
      checked s 143 0 0 0 1 .load = .ok 1 [0o200000] ∧ inCtl 0o200000 = false ∧
      (match (s.e 143).dataWords 0 [0o200000] with
        | .ok ws => ws = [1]
        | _ => false) = true) ∧
    (let s := stalled ⟨.seginv 143 0 0, .seginv 0 1, true⟩ g0; HoldsInEx 143 (.seginv 143 0 0) (.seginv 0 1) s ∧
      routineOk s 143 false (.seginv 143 0 0)) ∧
    (let s := (stalled ⟨.cust 143 31 1 2, .micro 1792, true⟩ { g0 with cstore := { CStore.reset with dir0 := [(31, place 0 0 1)] } }).modWel
        fun w => { w with gold0 := [(0, addWord)] };
      HoldsInEx 143 (.cust 143 31 1 2) (.micro 1792) s) ∧
    (let s := (stalled ⟨.cust 143 31 1 2, .micro 1792, true⟩ { g0 with cstore := { CStore.reset with dir0 := [(31, place 0 0 1)] } }).modWel
        fun w => { w with gold0 := [(0, addWord)] };
     let r := microWrite 143 1792 s;
      s.wel.failed = [] ∧ microAt (r.e 143) (custBank r 143) (1792 + fld (custDir r 143 31) 1 8) = addWord ∧ microOk false addWord = true) ∧
    (let i := Instr.stc 143 4 0 0 0;
     let s := stalled ⟨i, .stcLine 0o20000, true⟩ (g0.modMem fun m => { m with l1d := [dataL .m] });
      HoldsInEx 143 i (.stcLine 0o20000) s) ∧
    (let s := stalled ⟨.stc 143 4 0 0 0, .stcLine 0o20000, true⟩ (g0.modMem fun m => { m with l1d := [dataL .m] });
      checked s 143 0 0 0 1 .stc = .ok 1 [0o200000] ∧ (s.e 143).l1Find 0o20000 = some (dataL .m) ∧ (s.e 143).mem.resv = none ∧
      (s.e 143).mem.sb.length + (s.e 143).sbNeed .data [0o200000] ≤ 8 ∧
      okay (exec (.stcDecision 143 9) s) (fun t => (t.e 143).regs.pc = 2 ∧ !bit (final (t.e 143)).regs.st 6) = true) := by
  refine ⟨?_, by decide +kernel, ?_, by decide +kernel, ⟨?_, blank_routine rfl _ _⟩, ?_, by decide +kernel, ?_, by decide +kernel⟩ <;>
    (unfold HoldsInEx; decide +kernel)

theorem witness_EngineFailures :
    (let s := withE 143 g0;
      (s.e 143).run.inService = true ∧ (s.e 143).run.inReset = false ∧ s.wel.failed = [] ∧ (s.e 143).run.halted = false ∧
      (s.e 143).run.pearl = false ∧ 143 / 12 ∉ s.sys.slate ∧ 11 ∉ s.wel.clusterDead) ∧
    (let s := (withE 143 g0).modWel fun w => { w with failed := [⟨143, 4⟩] };
      (⟨143, 4⟩ : Failed) ∈ s.wel.failed ∧
      okay (exec (.engineFailureRecovery 143) s) (fun t => !(t.e 143).run.inService ∧ t.wel.failed = []) = true) := by decide +kernel

/-- One wrong symbol in line 9, which a scrub of its slot repairs; the channels; a lost line; a line of the descriptor area. -/
theorem witness_MemoryUnits :
    (let s := base.modMem fun m => { m with dram := [(72, 1)] };
      9 * (9 / 8) + 9 % 8 < slotsUsed s ∧ dataDead s 9 = false ∧ checkDead s 9 = false ∧
      rsDecode (dramLine s 9) (ckRead 9 s).1 = .fixed zeroLine 0 ∧
      okay (exec (.memoryScrub (9 * (9 / 8) + 9 % 8)) s) (fun t => t.mem.dram = []) = true) ∧
    (let s := base.cs (rMCSC 3 1) (place 9 17 16);
      3 ∉ s.mem.retired ∧ s.wel.failedU = [] ∧ tget 0 s.mem.uecMark 7 + 16 ≤ fld (s.cg (rMCSC (7 / 2) (7 % 2))) 9 17 ∧
      okay (exec (.channelErrorRate 7) s) (fun t => t.wel.failedU = [(2, 3, 9)]) = true) ∧
    (let s := base.modWel fun w => { w with failedU := [(2, 3, 9)] };
      okay (exec (.memoryChannelRetirement 3) s) (fun t => t.mem.retired = [3] ∧ t.wel.failedU = []) = true) ∧
    (let s := withLine (hl .lost 0 0) base;
      s.hl 8 = some (hl .lost 0 0) ∧ lineHeld s 8 = false ∧ tenant0Line s 8 = true ∧ lockedWin s 64 = false ∧
      okay (exec (.lostLineRewrite 8 ws8) s) (fun t => (t.hl 8).map HLine.st = some .i) = true) ∧
    (let x := { hl .i 0 0 with poison := true };
     let s := withLine x base;
      inDt s 8 = true ∧ s.hl 8 = some x ∧ lineHeld s 8 = false ∧ lockedWin s 64 = false ∧ ownerCopy s 8 = none ∧
      okay (exec (.descriptorLineRewrite 8) s) (fun t => (t.hl 8).map HLine.poison = some false) = true) := by decide +kernel
/-! ## Releases, debug, power, starts and pairs -/

/-- Context 16383 of tenant 9, armed, with period 5 and home engine 0. -/
def armedS (st : Nat) : State :=
  let r := rCtx 16383 0
  ((((((base.cs r (place 0 11 9 ||| place 12 14 st ||| place 17 18 1)).cs (r + 1) (maskW 8 31)).cs (r + 2) 5).cs (r + 6) 9).cs (r + 12) (place 0 11 1)).csf
    rRUCTL 0 0 1)

theorem witness_ReleaseUnit :
    (let s := armedS 2;
      bit (s.cg rRUCTL) 0 = true ∧ s.rel.stopped = false ∧ perOk s 16383 = true ∧ ctxNext s 16383 = 0 ∧
      ¬ (s.net.devTime + 1600000 ≤ boundary (ctxWords s 16383) 0)) ∧
    (let s := (armedS 2).cs (rCtx 16383 14) 1;
     let n := ctxNext s 16383;
      n = 1 ∧ s.net.devTime + 1600000 ≤ boundary (ctxWords s 16383) n ∧ 2 ≤ ctxState s 16383 ∧ ctxDis s 16383 = false ∧
      heldOff s 16383 (boundary (ctxWords s 16383) n) = false ∧ recOk (ctxWords s 16383) = true ∧ n + 1 < 2 ^ 72 ∧
      okay (exec (.boundaryStaging 16383) s) (fun t => t.rel.staged.length = 1 ∧ ctxNext t 16383 = 2) = true) ∧
    (let x : Entry := { act5 with rel := 7 * 1600000 };
     let s := { base with rel := { Rel.reset with staged := [x] } };
      s.rel.staged = [x] ∧ liveCtxs s = [] ∧ boundaryCtxs s 7 = [] ∧ pairRoleOf s ≠ 2 ∧ s.wel.swAt = none ∧ s.rel.waiting = [] ∧
      s.rel.tick ≤ 7 ∧
      okay (exec (.releaseEvent 7) s) (fun t => t.deque 0 = [x] ∧ ctxState t 5 = 3 ∧ t.rel.tick = 8) = true) ∧
    (let s := { base with rel := { Rel.reset with overflow := [(143, [act5])] } };
      s.overflow 143 = [act5] ∧ (s.deque 143).length < 64 ∧
      okay (exec (.overflowMove 143) s) (fun t => t.deque 143 = [act5]) = true) ∧
    (let s := withE 143 (actG.modRegs fun r => { r with st := setFld r.st 0 1 1 });
      engOf s 5 = some 143 ∧ (s.e 143).run.entry = some act5 ∧ (s.e 143).run.dlHeld = none ∧ (s.e 143).run.cphase = .idle ∧
      fld (s.e 143).regs.st 0 1 < 2 ∧ (s.e 143).run.halted = false ∧ bit (s.e 143).regs.tid 27 = true ∧ s.rel.waiting = [] ∧
      s.rel.staged = [] ∧ s.home.net = [] ∧
      okay (exec (.deadlineReached 5) s) (fun t =>
        (t.e 143).run.entry = none ∧ (t.e 143).pipe.exc.map Exc.vec = some 3 ∧ t.net.devTime = 10 ^ 9) = true) ∧
    (let s := withE 143 (actG.modRun fun r => { r with cphase := .locking 7 });
     let s := { s with rel := { s.rel with waiting := [act5] } };
      engOf s 5 = some 143 ∧ s.rel.waiting = [act5] ∧ act5.ctx = 5 ∧ s.rel.staged = [] ∧
      okay (exec (.deadlineReached 5) s) (fun t => t.rel.waiting = [] ∧ t.cg (rCtx 5 28) = 1) = true) := by decide +kernel

def withTap (t : TapInstr) (s : State) : State := { s with sys := { s.sys with tap := t } }

theorem witness_DebugPort :
    (tapOn base = true ∧ base.sys.tap ≠ .extest ∧ haltReach base 143 = true ∧ wholeReach base = true ∧ lifeState base ≠ 3 ∧
      okay (exec .extest base) (fun t => t.sys.heldInReset) = true) ∧
    okay (exec .leaveExtest (withTap .extest base)) (fun t => t.sys.tap = .bypass) = true ∧
    (let s := withE 143 g0;
      (s.e 143).run.inService = true ∧ (s.e 143).run.halted = false ∧ (s.e 143).run.haltReq = none ∧
      okay (exec (.debugHaltRequest 143) s) (fun t => (t.e 143).run.haltReq = some (1, 0)) = true) ∧
    (let s := (withE 143 g0).csf bootBlk 0 1 2; haltReach s 143 = false) ∧
    (let s := withE 143 (g0.modRun fun r => { r with haltReq := some (15, 3) });
      okay (exec (.haltTaken 143) s) (fun t => (t.e 143).run.halted ∧ fld (t.e 143).regs.dstat 1 4 = 15) = true) ∧
    (let s := withE 143 (g0.modRun fun r => { r with halted := true });
      okay (exec (.debugRelease 143) s) (fun t => !(t.e 143).run.halted) = true) ∧
    (let s := (withE 143 g0).csf bootBlk 0 1 3;
      lifeState s = 3 ∧ okay (exec .stopAll s) (fun t => t.rel.stopped ∧ (t.e 143).run.haltReq.isSome) = true) ∧
    (let s := base.csf (dbgBlk + 1) 0 0 1; bit (s.cg (dbgBlk + 1)) 0 = true) ∧
    (let s := withTap .dbgacc (withE 143 (g0.modRun fun r => { r with halted := true }));
      (s.e 143).run.halted = true ∧ s.sys.acc = none ∧
      okay (exec (.debugReadWord 1 143 32767) s) (fun t => t.sys.acc = some ⟨false, 1, 143, 32767, 0⟩) = true ∧
      okay (exec (.debugAccessDone true) { s with sys := { s.sys with acc := some ⟨true, 2, 143, 15, 6⟩ } }) (fun t =>
        (t.e 143).w 15 = 6) = true) := by decide +kernel

/-- Twelve engines of cluster 11 in Pearl. -/
def pearls : State := (List.range 12).foldl (fun s i => s.setE (132 + i) (g0.modRun fun r => { r with pearl := true })) (base.csf rPWRCTL 0 1 2)

/-- A device at rest in which every engine is out of service, and whose next event is the check of a grant in the next second. -/
def resting : State :=
  let s := base.csf rPWRCTL 0 1 3
  let s := { s with eng := (List.range 144).map fun e => (e, Engine.reset.modRun fun r => { r with inService := false }) }
  s.modWel fun w => { w with mpUp := [(0, true)], grants := [(1, some ⟨0, 0, 0, 9⟩)] }

theorem witness_sableEntry : sableOk resting = true := by decide +kernel

theorem witness_PowerAndClocks :
    (let s := (withE 143 (g0.modRun fun r => { r with pearl := true, idleWait := true })).csf (rIPEND 143) 2 2 1;
      (s.e 143).run.pearl = true ∧ s.cg (rIPEND 143) ≠ 0 ∧ bit (s.cg (rIPEND 143)) 2 = true ∧
      okay (exec (.pearlExit 143) s) (fun t => !(t.e 143).run.pearl ∧ !(t.e 143).run.idleWait) = true) ∧
    (slateOk pearls 11 = true ∧ okay (exec (.slateEntry 11) pearls) (fun t => t.sys.slate = [11]) = true) ∧
    (let s := { pearls with sys := { pearls.sys with slate := [11], slateWake := [11] } };
      slateCause s 11 = true ∧ okay (exec (.slateExit 11) s) (fun t => t.sys.slate = [] ∧ !(t.e 143).run.pearl) = true) ∧
    (let s := { base with sys := { base.sys with sable := true, sableEmul := true } };
      okay (exec .sableWake s) (fun t => !t.sys.sable ∧ fld (t.cg rPWRSTAT) 17 19 = 1) = true) ∧
    (base.sys.porHeld = false ∧ (1599 : Word).toInt < 1600 ∧ ¬ (1600 : Word).toInt < 1600 ∧ 1840 < (1841 : Word).toInt) ∧
    (let s := base.modWel fun w => { w with hotCount := 1 }; s.wel.hotCount = 1 ∧ s.sys.arbOut ≠ .failed ∧
      okay (exec (.tjUpdate 1841) s) (fun t => t.sys.arbOut = .failed) = true) ∧
    (let s := base.csf rREFSTAT 1 2 3;
      bit (s.cg rREFSTAT) 3 = false ∧ fld (s.cg rREFSTAT) 0 0 = 0 ∧ bit (s.cg rREFSTAT) 2 = true ∧ bit (s.cg rREFSTAT) 1 = true ∧
      okay (exec (.refInputLost false) s) (fun t => fld (t.cg rREFSTAT) 0 0 = 1) = true ∧
      okay (exec (.standbyReferenceInputLost true) s) (fun t => !bit (t.cg rREFSTAT) 2) = true) ∧
    (let s := base.csf rREFSTAT 3 3 1; bit (s.cg rREFSTAT) 3 = true ∧ 0 ∉ s.sys.refRetired ∧ s.sys.arbOut ≠ .failed ∧
      okay (exec (.refInputUsable false) s) (fun t => fld (t.cg rREFSTAT) 0 3 = 0b0100) = true) := by decide +kernel

theorem witness_ResetsAndDeviceFailure :
    (let s := base.modWel fun w => { w with mpUp := [(0, true)] };
      s.sys.porHeld = false ∧ s.sys.tap ≠ .extest ∧ s.sys.arbOut ≠ .failed ∧ welUp s = true ∧ s.sys.sable = false ∧
      fld (s.cg rMPSTAT) 1 2 ≠ 2 ∧ okay (exec .watchdogExpiry s) (fun t => t.sys.arbOut = .failed ∧ t.eng = []) = true) ∧
    (let s := { base with sys := { base.sys with arbOut := .failed } }; okay (exec .deviceRestart s) (fun t => t.sys.devFailN) = true) ∧
    (let s := (base.modWel fun w => { w with mpUp := [(0, true), (1, true)] }).csf rMPSTAT 1 2 2;
      welUp s = true ∧ fld (s.cg rMPSTAT) 1 2 = 2 ∧
      okay (exec .mpHeartbeatLost s) (fun t => fld (t.cg rMPSTAT) 0 2 = 4) = true) ∧
    (let x : Staged := { kind := 0, tenant := 0, index := 0, minlvl := 0, newIndex := 0, win := 0, first := 0, words := 0,
                         image := List.replicate 73 1, active := false, swTime := 0 };
     let s := (base.csf bootBlk 2 2 1).modWel fun w => { w with staged := [x] };
      s.wel.staged = [x] ∧ classOk s x = false ∧ staging s 0 = false ∧ s.boot.setMoved = false ∧
      vok s = true ∧ okay (exec .deviceReset s) (fun t => slotAt t 1 = slotOctets 1 { mantle := x.image, welana := [], vendor := [] } ∧
        slotAt t 0 = slotAt s 0) = true) := by decide +kernel

def inRecovery : State := { base with boot := { base.boot with phase := .recovery, recSender := some 6 } }

theorem witness_StartAndRecovery :
    (base.boot.phase = .idle ∧ base.sys.porHeld = false ∧ base.sys.heldInReset = false ∧ base.sys.sable = false ∧ vok base = false ∧
      slotGood (slotAt base 0) = false ∧ slotGood (slotAt base 1) = false ∧
      okay (exec (.coldStart ⟨true, true⟩) base) (fun t => t.boot.phase = .recovery) = true) ∧
    (let s := { State.reset with boot := { Boot.reset with phase := .waitMem } };
      fld (s.cg rMEMCFG) 0 2 = 0 ∧ okay (exec (.memoryInitComplete 5) s) (fun t => t.boot.phase = .halted) = true) ∧
    (let s := { State.reset with boot := { Boot.reset with phase := .recovery } };
      okay (exec (.memoryInitComplete 4) s) (fun t => fld (t.cg rMEMCFG) 5 35 = 8 * 238609294) = true) ∧
    (inRecovery.boot.recReset = false ∧ inRecovery.boot.recSender = some 6 ∧ 8388607 + 1 ≤ 8388608 ∧
      okay (exec (.recoveryData 6 8388607 [1]) inRecovery) (fun t => t.boot.recData = [(8388607, [1])]) = true ∧
      okay (exec .recoverySenderTimeout inRecovery) (fun t => t.boot.recSender = none) = true) ∧
    (let s := inRecovery.csf rMEMCFG 0 2 1;
      fld (s.cg rMEMCFG) 0 2 ≠ 0 ∧ installCheck s 5 = .inl 8 ∧
      okay (exec (.recoveryInstall 6 5) s) (fun t => t.boot.recOut.map Prod.fst = some 5) = true) ∧
    (let s := { inRecovery with boot := { inRecovery.boot with recReset := true } };
      s.wel.staged = [] ∧ okay (exec .recoveryLoaderReset s) (fun t => t.boot.phase = .idle) = true) := by decide +kernel

/-- A device of a pair with a role; a valid session 16383 of heartbeat interval 1. -/
def role (r : Nat) (s : State) : State := s.csf rPAIRSTAT 0 1 r
def hbS : State := ((base.cs (rSes 16383 0) (place 0 0 1 ||| place 1 2 2)).cs (rSes 16383 2) (place 16 25 1)).csf (rSes 16383 11) 0 0 1

def psAck (a : Nat) : SgIn :=
  { ses := 7, port := 0, arrival := 5, ty := 128 + ttPairsync, seq := 1, txid := 0, frameLen := 90, fragmented := false, payload := beOctets 4 a }

theorem witness_PairRoles :
    (let s := role 2 base; fld (s.cg rPAIRSTAT) 0 1 = 2 ∧
      okay (exec (.arbInPattern .failed) s) (fun t => fld (t.cg rPAIRSTAT) 0 1 = 1 ∧ t.sys.arbOut = .primary) = true) ∧
    (let s := role 1 base; bit (s.cg rPAIRSTAT) 6 = false ∧
      okay (exec (.arbInPattern .primary) s) (fun t => fld (t.cg rPAIRSTAT) 0 1 = 2) = true) ∧
    (let s := { base with sys := { base.sys with arbIn := .primary } }; s.sys.arbIn ≠ .absent ∧
      okay (exec .arbInAbsent s) (fun t => t.net.devTime = 128000) = true) ∧
    (let s := (role 1 base).modWel fun w => { w with swAt := some 7 }; s.wel.swAt = some 7 ∧ liveCtxs s = [] ∧ s.rel.waiting = [] ∧
      okay (exec .switchoverTime s) (fun t => fld (t.cg rPAIRSTAT) 0 1 = 2 ∧ t.wel.swAt = none) = true) ∧
    (let s := (role 2 base).csf rPAIRSTAT 5 5 1; fld (s.cg rPAIRSTAT) 0 1 = 2 ∧ bit (s.cg rPAIRSTAT) 5 = true ∧
      okay (exec .standbySyncLost s) (fun t => t.net.devTime = 128000000) = true) ∧
    (let s := ((role 1 base).csf rPAIRSTAT 4 4 1).csf rPAIRSTAT 7 7 1; bit (s.cg rPAIRSTAT) 4 = true ∧ bit (s.cg rPAIRSTAT) 7 = true ∧
      okay (exec .epochMarker s) (fun t => t.wel.kept = [(1, .epoch 0)] ∧ t.wel.recSent = 2) = true ∧
      okay (exec .resynchronisation s) (fun t => !bit (t.cg rPAIRSTAT) 7 ∧ 2 ≤ t.wel.kept.length) = true) ∧
    (let s := (role 1 base).modWel fun w => { w with kept := [(1, .epoch 0)], recNext := 2, recSent := 2 }; unacked s ≠ [] ∧
      okay (exec .pairsyncRetransmit s) (fun t => fld (t.cg (rPAIRSTAT + 1)) 18 35 = 1) = true) ∧
    (let s := ((role 1 base).modWel fun w => { w with kept := [(1, .epoch 0), (2, .epoch 1)], recNext := 3, recSent := 3 }).modNet fun n =>
        { n with inq := [psAck 1] };
      s.net.inq = [psAck 1] ∧ s.wel.kept = [] ++ (1, .epoch 0) :: [(2, .epoch 1)] ∧ s.wel.recSent ≠ 1 ∧
      okay (exec .pairsyncAck s) (fun t => t.wel.ackd = 1 ∧ t.wel.kept = [(2, .epoch 1)]) = true) ∧
    (let x := { psAck 0 with ty := ttPairsync, payload := beOctets 4 1 ++ [1] ++ [4] ++ packWords [timeHi 9, timeLo 9] };
     let s := (role 2 base).modNet fun n => { n with inq := [x] };
      s.wel.inStream = false ∧ s.wel.held = [] ∧ 9 ≠ s.wel.lastEpoch ∧
      okay (exec .pairsync s) (fun t => t.wel.applied = 1 ∧ t.wel.lastEpoch = 9) = true) ∧
    (sesValid hbS 16383 = true ∧ hbInt hbS 16383 = 6400000 ∧ sesKind hbS 16383 ≠ 3 ∧ sesUp hbS 16383 = true ∧
      okay (exec (.heartbeatSend 16383) hbS) (fun t => t.net.devTime = 6400000) = true ∧
      okay (exec (.sessionDown 16383) hbS) (fun t => !sesUp t 16383) = true) := by decide +kernel

/-- The clauses of PairRoles about a partner whose session is up. -/
theorem witness_PairRoles_partner :
    (let s := (({ base with sys := { base.sys with arbIn := .standby } }).csf bootBlk 2 2 1 |> role 1).csf rPAIRSTAT 4 4 1;
      s.sys.arbIn ≠ .absent ∧ s.sys.arbIn ≠ .failed ∧ vok s = true ∧ fld (s.cg rPAIRSTAT) 0 1 = 1 ∧ bit (s.cg rPAIRSTAT) 4 = true ∧
      okay (exec .arbInAbsent s) (fun t => t.wel.journal.map JEntry.cmd = [0o401]) = true) ∧
    (let s := (((role 1 base).csf rPAIRSTAT 4 4 1).modWel fun w => { w with kept := [(1, .epoch 0)], recNext := 2 });
      s.wel.kept.getLast?.map Prod.snd = some (.epoch s.net.devTime) ∧
      okay (exec .epochMarker s) (fun t => t.net.devTime = 1 ∧ t.wel.kept = [(1, .epoch 0), (2, .epoch 1)]) = true) ∧
    (let x := { psAck 0 with ty := ttPairsync, payload := beOctets 4 1 ++ [1] ++ [4] ++ packWords [timeHi 9, timeLo 9] };
     let s := ((({ base with sys := { base.sys with arbIn := .standby } }).csf rPAIRSTAT 4 5 3 |> role 2).modNet fun n =>
        { n with inq := [x] }).modWel fun w => { w with partnerRole := 2 };
      bit (s.cg rPAIRSTAT) 5 = true ∧ s.wel.partnerRole = 2 ∧ s.sys.arbIn = .standby ∧ bit (s.cg rPAIRSTAT) 4 = true ∧
      okay (exec .pairsync s) (fun t => fld (t.cg rPAIRSTAT) 0 1 = 1 ∧ t.sys.arbOut = .primary) = true) ∧
    (let s := (hbS.csf rPAIRSTAT 4 5 3).modWel fun w => { w with partner := 16383 };
      sesKind s 16383 = 2 ∧ s.wel.partner = 16383 ∧
      okay (exec (.sessionDown 16383) s) (fun t => fld (t.cg rPAIRSTAT) 4 5 = 0) = true) := by decide +kernel
/-! ## Registers, fuses, movers, gates -/

theorem witness_RegisterAccesses :
    (agOk .debug = true ∧ agOk (.mover 11) = true ∧ agOk (.engine 143) = true) ∧
    (let off := mcBlk 0 + 0o1000; ctlAcc off = none ∧ mcBlk 0 ≤ off ∧ off < relBlk) ∧
    (sramBlk + 0o400 ≤ sramBlk + 0o400 ∧ sramBlk + 0o400 < dbgBlk ∧ (ctlAcc (sramBlk + 0o400)).isSome ∧
      (ctlAcc (sramBlk + 0o400)).all (fun a => a.rw &&& a.w1c = 0) = true ∧
      okay (exec (.registerWrite .debug (sramBlk + 0o400) 6) base) (fun t => t.cg (sramBlk + 0o400) = 6) = true) ∧
    okay (exec (.registerWrite .debug (sramBlk + 0o377) 6) base) (fun t => t.answer = .failed 2) = true ∧
    (lockedWin base (ctlBase + (bootSramBlk + 262143)) = false ∧
      okay (exec (.registerWrite .debug (bootSramBlk + 262143) 6) base) (fun t => t.mem.bootSram = [(262143, 6)]) = true) ∧
    (let s := ((base.cs (rLKW 0) (place 0 0 1)).cs (rLKW 0 + 1) (place 1 35 (ctlBase + bootSramBlk))).cs (rLKW 0 + 2) 8;
      lockedWin s (ctlBase + (bootSramBlk + 7)) = true ∧
      okay (exec (.registerWrite .debug (bootSramBlk + 7) 6) s) (fun t => t.answer = .failed 2) = true) ∧
    (okay (exec (.contextRecordWrite .debug 16383 13 6) base) (fun t => t.answer = .ok) = true ∧
      okay (exec (.contextRecordWrite .debug 16383 31 6) base) (fun t => t.answer = .ok) = true) ∧
    (fld (base.cg (rCtx 16383 0)) 12 14 ≤ 1 ∧
      okay (exec (.contextRecordWrite .debug 16383 0 (place 12 14 1)) base) (fun t => ctxState t 16383 = 1) = true) ∧
    (mOnly (agLevel base .mgmt) .mgmt = true ∧ mOnly (agLevel base (.engine 1)) (.engine 1) = true ∧
      (let s := withE 1 (atLevel 0 0 g0); mOnly (agLevel s (.engine 1)) (.engine 1) = false ∧
        okay (exec (.rsvcfgWrite (.engine 1) 3) s) (fun t => t.answer = .failed 2) = true)) ∧
    okay (exec (.pctlClear .debug 143 (place 1 1 1)) (base.cs2 (rPerf 143) 7)) (fun t => t.cg2 (rPerf 143) = 0) = true ∧
    (ctlAcc (rMCSC 3 1)).isSome ∧ readClears base .mgmt = true ∧
    okay (exec (.readClear .mgmt (rMCSC 3 1) false) (base.cs (rMCSC 3 1) (place 9 17 3))) (fun t =>
      t.answer = .read [place 9 17 3] ∧ t.cg (rMCSC 3 1) = 0) = true ∧
    (dbgOnly (rDbgMbx + 0o3777) = true ∧ Agent.mgmt ≠ .debug ∧
      okay (exec (.readClear .mgmt (rDbgMbx + 0o3777) false) base) (fun t => t.answer = .failed 2) = true) ∧
    (let s := base.cs (rMbx 4095) (place 0 8 1); cmdAssigned 1 = true ∧
      okay (exec (.mailboxDoorbell .mgmt (.tenant 4095) (place 0 0 1)) s) (fun t => t.wel.queue = [⟨.tenant 4095, [place 0 8 1]⟩]) = true) := by
  decide +kernel

/-- Window 15 set up over line 8; an owner's key in slot 3; and the states of the lifecycle. -/
def lkw15 : State := (base.cs (rLKW 15 + 1) (place 1 35 64)).cs (rLKW 15 + 2) 8

def keyed : State := base.modOtp (Otp.program fun c => { c with okeys := [(3, [1])] })

theorem witness_LocksAndFuses :
    (bit (lkw15.cg (rLKW 15)) 0 = false ∧ lkwOk lkw15 15 = true ∧
      okay (exec (.lkwLock .mgmt 15) lkw15) (fun t => bit (t.cg (rLKW 15)) 0) = true) ∧
    (lkwOk base 0 = false ∧ okay (exec (.lkwLock .mgmt 0) base) (fun t => t.answer = .failed 2) = true) ∧
    okay (exec (.lkwRelease .mgmt 15) (lkw15.cs (rLKW 15) (place 0 1 3))) (fun t => !bit (t.cg (rLKW 15)) 0) = true ∧
    (lifeState base = 0 ∧ slotValue base .owner 3 = none ∧
      okay (exec (.programOwnerSlot .debug 3) base) (fun t => fld (t.cg rFSTAT) 1 6 = 0) = true) ∧
    (slotValue keyed .owner 3 ≠ none ∧ okay (exec (.seal .debug) keyed) (fun t => t.boot.otp.sealed) = true) ∧
    ((List.range 4).all (fun n => (slotValue base .owner n).isNone) = true ∧
      okay (exec (.seal .debug) base) (fun t => fld (t.cg rFSTAT) 1 6 = 3) = true) ∧
    (let s := base.csf bootBlk 0 1 1; lifeState s = 1 ∧ verifyImage s (octetsOf (s.cgs (bootBlk + 0o4000) 2048)) 5 ≠ 0) := by
  decide +kernel

/-- Channel 15 of mover 11 bound to tenant 9, with a source and a destination set. -/
def chS : State :=
  (base.cs (rMVBIND 11 15) (place 0 11 9 ||| place 12 12 1)).css (chSet 11 15 false) [place 0 7 1 ||| place 8 15 2, 0, 0, 0]

def armedOn (sh : Bool) (s : State) : State := setArmed 11 15 sh true s

/-- The same channel, to copy one word, with the descriptors of segments 1 and 2 of tenant 9 in memory. -/
def copyS : State :=
  let d := fun (b : Nat) => [mkW b, place 0 2 1 ||| place 3 4 3 ||| place 6 17 9 ||| place 22 35 7]
  cohPokes (descAddr base 9 2) (d 128) (cohPokes (descAddr base 9 1) (d 64) (chS.cs (chSet 11 15 false + 3) (place 6 35 1)))

/-- What the checks answer at a start. -/
def startsWith (s : State) : Sum Nat (Nat × Nat) :=
  let u := descTouch (.mover 11) 9 2 (descTouch (.mover 11) 9 1 s)
  startChecks u 11 15 1 2 0 1 0 1

theorem witness_TransferStart :
    (fld ((chS.cs (chSet 11 15 false + 3) (place 6 35 1)).cg (chSet 11 15 false + 3)) 6 35 = 1 ∧
      startsWith (chS.cs (chSet 11 15 false + 3) (place 6 35 1)) = .inl 1) ∧
    startsWith copyS = .inr (64, 128) ∧
    okay (exec (.moverArm .mgmt 11 15 false) copyS) (fun t => okay (exec (.transferStart 11) t) (fun u =>
      (u.mover 11).cur.map (fun x => (x.err, x.srcW, x.dstW, x.awaitR.length)) = some (0, 64, 128, 1)) = true) = true := by decide +kernel

theorem witness_MoverTransfers :
    (chBound chS 11 15 = true ∧ (chS.mover 11).retired = false ∧ armed chS 11 15 false = false ∧ armed chS 11 15 true = false ∧
      okay (exec (.moverArm .mgmt 11 15 false) chS) (fun t => armed t 11 15 false ∧ (t.mover 11).queue = [15]) = true ∧
      okay (exec (.moverArm .mgmt 11 15 true) chS) (fun t => armed t 11 15 false ∧ !armed t 11 15 true) = true) ∧
    (okay (exec (.moverArm .mgmt 11 15 false) chS) (fun t =>
      okay (exec (.moverArm .mgmt 11 15 true) t) (fun u => armed u 11 15 false ∧ armed u 11 15 true) = true ∧
      okay (exec (.moverAbort .mgmt 11 15) t) (fun u => !armed u 11 15 false ∧ fld (u.cg (rCHSTAT 11 15)) 3 7 = 0o14) = true ∧
      okay (exec (.transferStart 11) t) (fun u => (u.mover 11).cur.map Transfer.count = some 0 ∧
        okay (exec (.transferEnd 11) u) (fun v => (v.mover 11).cur = none ∧ fld (v.cg (rCHSTAT 11 15)) 3 7 = 0) = true) = true) = true) ∧
    (let s := withE 1 (atLevel 0 0 g0); mOnly (agLevel s (.engine 1)) (.engine 1) = false ∧ chBound s 11 15 = false ∧
      okay (exec (.moverArm (.engine 1) 11 15 false) s) (fun t => t.answer = .failed 2) = true) ∧
    (let x : Transfer := ⟨15, 0, 0, false, 0, 0, 1, 9, 1, 2, [], [], [(8, 77)], [], [], 0, false, false⟩;
     let s := armedOn false (chS.modMover 11 fun m => { m with cur := some x });
      (s.mover 11).cur = some x ∧ x.awaitR = [(8, 77)] ∧ x.awaitW = [] ∧ armed s 11 15 true = false ∧ armed s 11 15 false = true ∧
      okay (exec (.moverRequestTimeout 11) s) (fun t => (t.mover 11).cur = none ∧ t.net.devTime = 77) = true ∧
      okay (exec (.moverAbort .mgmt 11 15) s) (fun t => (t.mover 11).cur = some { x with aborting := true }) = true ∧
      okay (exec (.moverFailure 11) s) (fun t => (t.mover 11).retired) = true) := by decide +kernel

/-- A gate list of one entry of 1 ms on port 3 and as stream gate 63: in operation, and with a change pending. -/
def gateS (st : Bool) (i : Nat) : State :=
  let c := rGctl st i
  let s := (base.cs (c + 1) (place 6 35 1000000)).csf c 4 12 1
  s.cs (c + 4) (place 8 35 1000000)

theorem witness_GatesAndDeviceTime :
    (gateNumOk false 3 = true ∧ gateNumOk true 63 = true ∧ gateNumOk true 64 = false) ∧
    (let g : GateRun := ⟨0, 64000000, 1, 0, 0, none⟩;
     let s := (gateS true 63).modNet fun n => { n with sgates := [(63, some g)] };
      gateRun s true 63 = some g ∧ (gAt s true 63 g s.net.devTime).1 = g.idx) ∧
    (let g : GateRun := ⟨0, 64000000, 1, 0, 5, none⟩;
     let s := (gateS true 63).modNet fun n => { n with sgates := [(63, some g)] };
      (gAt s true 63 g s.net.devTime).1 ≠ g.idx ∧
      okay (exec (.gateEntryAdvance true 63) s) (fun t => gateRun t true 63 = some { g with idx := 0 }) = true) ∧
    (let s := (gateS true 63).modNet fun n => { n with sgChg := [(63, some 77)] };
      gateChg s true 63 = some 77 ∧ okay (exec (.gateChangeTime true 63) s) (fun t => t.net.devTime = 77) = true) ∧
    (let s := gateS true 63;
     let c := rGctl true 63;
      mOnly (agLevel s .mgmt) .mgmt = true ∧ bit (s.cg c) 2 = false ∧ chgOk s true 63 1 = true ∧ chgOk s true 63 0 = false ∧
      okay (exec (.gateChangeArm .mgmt true 63 (place 0 0 1 ||| place 3 3 1 ||| place 4 12 1)) s) (fun t =>
        bit (t.cg c) 2 ∧ (gateChg t true 63).isSome) = true) ∧
    (let s := base.csf rRUCTL 0 0 1; bit (s.cg rRUCTL) 0 = true ∧ bit (base.cg rRUCTL) 0 = false ∧
      okay (exec (.deviceTimeStep .mgmt 1 2) base) (fun t => t.net.devTime = 64 * 10 ^ 9 + 2) = true ∧
      okay (exec (.deviceTimeStep .mgmt 1 2) s) (fun t => t.answer = .failed 2) = true) ∧
    ((219902325 : Word).toInt.natAbs ≤ 219902325 ∧ 219902325 < (219902326 : Word).toInt.natAbs ∧
      okay (exec (.deviceTimeRate .mgmt 219902326) base) (fun t => t.answer = .failed 2) = true) := by decide +kernel
/-! ## Management -/

/-- A device whose boot set is in effect and whose management engine 0 is up; the debug mailbox then has the role of configuration
(R483). -/
def manS : State := (base.csf bootBlk 2 2 1).modWel fun w => { w with mpUp := [(0, true)] }

/-- A message. -/
def cmd (c t : Nat) (ops : List Word) : List Word := (place 0 8 c ||| place 9 17 ops.length ||| place 18 29 t) :: ops

/-- The message is the command's, and is next. -/
def next1 (code : Nat) (src : MbSrc) (msg : List Word) (s : State) : Bool :=
  manOk code src msg && welIdle s && (decide (s.wel.queue = []) || decide (nextCmd s = some ⟨src, msg⟩))

def orderB (s : State) : Bool :=
  [s.wel.bankA, s.wel.bankB].all fun b => decide ((b.deltas.map Delta.jseq).Pairwise (· < ·)) &&
    b.deltas.all fun d => decide (b.jseq < d.jseq ∧ d.jseq ≤ max s.wel.jnext (b.jseq + 1))

theorem orderB_spec {s} (h : orderB s = true) : StoreOrder s := by
  intro b hb
  have h1 := List.all_eq_true.mp h b hb
  simp only [Bool.and_eq_true, decide_eq_true_eq, List.all_eq_true] at h1
  exact h1

/-- The command is taken up, and its checks answer a change with a property. -/
def changes (code : Nat) (plan : Bool → MbSrc → List Word → State → Plan) (src : MbSrc) (msg : List Word) (s : State)
    (p : Chg → Bool) : Bool :=
  next1 code src msg s && match plan false src msg (begun src msg s) with
    | .chg c => p c
    | .err _ _ => false

/-- The command is accepted. -/
def runsWith (hide : Nat → Bool) (prep : MbSrc → State → State) (code : Nat) (cls : CmdClass)
    (plan : Bool → MbSrc → List Word → State → Plan) (src : MbSrc) (msg : List Word) (s : State) : Bool :=
  let u := prep src (begun src msg s)
  changes code plan src msg s fun c =>
    (admitChg c u).isNone && (decide (cls ≠ .l) || u.wel.ljobs.all fun j => j.code ≠ msgCmd msg) &&
      (decide (cls = .l) || decide (c.apply u ≠ u)) && !deltaBad c (journaled src msg hide u) && orderB u

def runsHere : Nat → CmdClass → (Bool → MbSrc → List Word → State → Plan) → MbSrc → List Word → State → Bool :=
  runsWith noHide fun _ s => s

/-- It is taken up and refused with this error. -/
def refusedHere (code : Nat) (plan : Bool → MbSrc → List Word → State → Plan) (src : MbSrc) (msg : List Word) (s : State) (e : Nat) :
    Bool :=
  next1 code src msg s && match plan false src msg (begun src msg s) with
    | .chg _ => false
    | .err e' _ => e' = e

theorem next1_spec {code src msg s} (h : next1 code src msg s = true) : manOk code src msg = true ∧ Turn src msg s := by
  simp only [next1, Bool.and_eq_true, Bool.or_eq_true, decide_eq_true_eq] at h
  exact ⟨h.1.1, h.1.2, h.2⟩

theorem changes_spec {code plan src msg s p} (h : changes code plan src msg s p = true) :
    manOk code src msg = true ∧ Turn src msg s ∧ ∃ c, plan false src msg (begun src msg s) = .chg c ∧ p c = true := by
  simp only [changes, Bool.and_eq_true] at h
  refine ⟨(next1_spec h.1).1, (next1_spec h.1).2, ?_⟩
  have hp := h.2
  split at hp
  · exact ⟨_, by assumption, hp⟩
  · exact absurd hp (by decide)

theorem runsWith_spec {hide prep code cls plan src msg s} (h : runsWith hide prep code cls plan src msg s = true) :
    let u := prep src (begun src msg s)
    manOk code src msg = true ∧ Turn src msg s ∧ ∃ c, Passed cls msg (plan false src msg (begun src msg s)) u c ∧
      deltaBad c (journaled src msg hide u) = false ∧ StoreOrder u := by
  obtain ⟨hm, ht, c, hc, hp⟩ := changes_spec h
  simp only [Bool.and_eq_true, Bool.or_eq_true, decide_eq_true_eq, List.all_eq_true, Bool.not_eq_true'] at hp
  obtain ⟨⟨⟨⟨h1, h2⟩, h3⟩, h4⟩, h5⟩ := hp
  exact ⟨hm, ht, c, ⟨hc, Option.isNone_iff_eq_none.mp h1, fun hl => h2.resolve_left (absurd hl), h3⟩, h4, orderB_spec h5⟩

theorem refusedHere_spec {code plan src msg s e} (h : refusedHere code plan src msg s e = true) :
    manOk code src msg = true ∧ Turn src msg s ∧ ∃ d, plan false src msg (begun src msg s) = .err e d := by
  simp only [refusedHere, Bool.and_eq_true] at h
  refine ⟨(next1_spec h.1).1, (next1_spec h.1).2, ?_⟩
  have hp := h.2
  split at hp
  · exact absurd hp (by decide)
  · rename_i e' d hd
    simp only [decide_eq_true_eq] at hp
    exact ⟨d, hp ▸ hd⟩

/-- Tenant 9, created and admitted with quotas; its context 16383, dormant; its session 16383. -/
def ten9 : State :=
  (manS.css (rTen 9 0) [place 0 1 1, 1]).modWel fun w => { w with quotas := [(9, ⟨5, 5, 5, 0⟩)] }

def ctx9 (st : Nat) (s : State) : State :=
  let r := rCtx 16383 0
  (((((s.cs r (place 0 11 9 ||| place 12 14 st)).cs (r + 1) (maskW 8 31)).cs (r + 2) 5).cs (r + 6) 9).cs (r + 12) (place 0 11 1)).cs (r + 11)
    (place 8 23 1)

def ses9 (kind : Nat) (s : State) : State := s.cs (rSes 16383 0) (place 0 0 1 ||| place 1 2 kind ||| place 3 14 9)

theorem witness_TenantCommands :
    runsHere 0o20 .c planTenantCreate .debug (cmd 0o20 4095 [place 0 22 7, 0]) manS = true ∧
    refusedHere 0o20 planTenantCreate .debug (cmd 0o20 0 [0, 0]) manS 6 = true ∧
    runsHere 0o22 .c planTenantSet .debug (cmd 0o22 9 [place 8 22 5, place 0 17 5]) ten9 = true ∧
    runsHere 0o21 .l planTenantRetire .debug (cmd 0o21 9 []) ten9 = true ∧
    (let s := ten9.csf (rTen 9 0) 0 1 3; tenState s 9 = 3 ∧ tenLive s 9 = false) ∧
    (let s := (withE 3 actG).cs (rCtx 5 0) (place 0 11 9 ||| place 12 14 4); tenLive s 9 = true) ∧
    (let s := (ten9.csf (rTen 9 0) 2 2 1).csf (rTen 9 0) 3 8 63;
      runsHere 0o24 .c planTenantUnseal .debug (cmd 0o24 9 []) s = true ∧ unsealWaits .debug (cmd 0o24 9 []) s = false) ∧
    (let s := (manS.csf (rTen 9 0) 0 1 2).csf (rTen 9 0) 2 2 1;
      tenState s 9 = 2 ∧ tenSealed s 9 = true ∧ tenLive s 9 = false) := by decide +kernel

theorem choose_some {xs : List Nat} (h : xs ≠ []) : ∃ k ∈ xs, choose xs = some k := by
  have hl : Config.freeChoice xs % xs.length < xs.length := Nat.mod_lt _ (List.length_pos_iff.mpr h)
  exact ⟨xs[Config.freeChoice xs % xs.length], List.getElem_mem hl, List.getElem?_eq_getElem hl⟩

theorem orErr_none {cs : List (Bool × Nat × Nat)} {p : Plan} (h : firstErr cs = none) : orErr cs p = p := by
  simp [orErr, h]

/-- TENANT SEAL with engines 0 and 143 and two cache blocks: accepted, whichever sealed index Welana takes. -/
def sealMsg : List Word := cmd 0o23 9 [place 0 0 1, 0, 0, place 35 35 1, place 0 0 1, 0, 1]

/-- The state in which Welana begins it. -/
def sealS : State := begun .debug sealMsg ten9

theorem seal_plan {src msg s i} (h : choose (freeSidx s) = some i) (hf : firstErr (sealChecks false src msg s) = none) :
    ∃ c, planTenantSeal false src msg s = .chg c ∧ c.adm = some (armedCtxs s (msgTen src msg)) ∧
      c.apply = applySeal (msgTen src msg) i (sealWords s msg) ∧ c.shaped = tenCtxs s (msgTen src msg) ∧
      c.recs = fun u => tenRec u (msgTen src msg) :: dedRec u (msgTen src msg) :: (tenCtxs u (msgTen src msg)).map (ctxRec u) := by
  unfold planTenantSeal
  simp only [h]
  exact ⟨_, orErr_none hf, rfl, rfl, rfl, rfl⟩

/-- The checks pass whatever index Welana takes; the rest, here for index 0. -/
theorem witness_TenantSeal_checks : next1 0o23 .debug sealMsg ten9 = true ∧ freeSidx ten9 = freeSidx sealS ∧ freeSidx sealS ≠ [] ∧
    firstErr (sealChecks false .debug sealMsg sealS) = none ∧ firstErr (sealChecks false .debug sealMsg ten9) = none ∧
    ((maskNums ((sealWords ten9 sealMsg).take 4)).any fun e => (ten9.e e).act) = false := by decide +kernel

/-- The change for index 0. -/
def sealed0 (s : State) : State := applySeal (msgTen .debug sealMsg) 0 (sealWords sealS sealMsg) s

theorem witness_TenantSeal_rest : armedCtxs sealS (msgTen .debug sealMsg) = [] ∧ tenCtxs sealS (msgTen .debug sealMsg) = [] ∧
    (admission (sealed0 sealS) [] []).isNone = true ∧ sealed0 sealS ≠ sealS ∧ orderB sealS = true ∧
    (let j := journaled .debug sealMsg noHide sealS;
     let u := sealed0 j;
      j.wel.deltaFails = false ∧ takesDelta (tenRec u (msgTen .debug sealMsg) :: dedRec u (msgTen .debug sealMsg) ::
        (tenCtxs u (msgTen .debug sealMsg)).map (ctxRec u)) j = true) := by decide +kernel

theorem witness_TenantSeal (hc : choose (freeSidx sealS) = some 0) :
    manOk 0o23 .debug sealMsg = true ∧ Turn .debug sealMsg ten9 ∧ sealWaits .debug sealMsg ten9 = false ∧
    ∃ c, Passed .c sealMsg (planTenantSeal false .debug sealMsg sealS) sealS c ∧ deltaBad c (journaled .debug sealMsg noHide sealS) = false ∧
      StoreOrder sealS := by
  obtain ⟨hn, he, -, hf, hf', hw⟩ := witness_TenantSeal_checks
  obtain ⟨h0, ht, ha, hne, ho, hd, hk⟩ := witness_TenantSeal_rest
  obtain ⟨c', h1', -⟩ := seal_plan (src := .debug) (msg := sealMsg) (he ▸ hc) hf'
  obtain ⟨c, h1, h2, h3, h4, h5⟩ := seal_plan (src := .debug) (msg := sealMsg) hc hf
  refine ⟨(next1_spec hn).1, (next1_spec hn).2, ?_, c, ⟨h1, ?_, fun h => absurd h (by decide), Or.inr ?_⟩, ?_, orderB_spec ho⟩
  · rw [sealWaits, h1']
    exact hw
  · rw [admitChg, h4, ht, h2, h0, h3]
    exact Option.isNone_iff_eq_none.mp ha
  · rw [h3]
    exact hne
  · rw [deltaBad, h5, h3]
    exact Bool.or_eq_false_iff.mpr ⟨hd, by rw [Bool.not_eq_false']; exact hk⟩

/-- The store has room for one short record. -/
theorem takes_one (s : State) (r : StoreRec) (hb : (storeBank s).deltas = [])
    (hl : 6 + packedLen r.key.length + packedLen r.data.length ≤ 4096) : takesDelta [r] s = true := by
  simp only [takesDelta, Bank.addDelta, insDelta, hb, chainDeltas, Bank.fits, recsLen, Bank.used, Delta.size, deltaMax, deltaArea, mib,
    List.all_cons, List.all_nil, List.map_cons, List.map_nil, List.sum_cons, List.sum_nil, Bool.and_true, Bool.or_eq_true,
    Bool.and_eq_true, decide_eq_true_eq]
  omega

/-- A near segment and a device segment, which need no place in memory; a segment of 8 words freed, and resized. -/
def seg9 : State :=
  let d : StoreRec := ⟨2, [9, 7], [0, place 0 2 3 ||| place 3 5 6 ||| place 6 17 9 ||| place 18 19 1 ||| place 22 35 7]⟩
  ten9.modWel fun w => { w with bankA := { w.bankA with base := [d] } }

theorem witness_SegmentAndContextCommands :
    runsHere 0o40 .c planSegmentAllocate .debug
      (cmd 0o40 9 [place 0 7 254 ||| place 8 10 3 ||| place 11 13 6 ||| place 14 15 1, 8, 0]) ten9 = true ∧
    refusedHere 0o40 planSegmentAllocate .debug (cmd 0o40 9 [place 0 7 255 ||| place 8 10 3, 8, 0]) ten9 7 = true ∧
    runsHere 0o41 .c planSegmentFree .debug (cmd 0o41 9 [place 0 7 7]) seg9 = true ∧
    runsHere 0o42 .c planSegmentResize .debug (cmd 0o42 9 [place 0 7 7, 16]) seg9 = true ∧
    runsHere 0o61 .c planContextSet .debug (cmd 0o61 9 [16383, place 5 6 3, 0, 7]) (ctx9 1 ten9) = true ∧
    runsHere 0o62 .c planContextArm .debug (cmd 0o62 9 [16383, 0, 0]) (ctx9 1 ten9) = true ∧
    runsHere 0o64 .c planContextRetire .debug (cmd 0o64 9 [16383]) (ctx9 1 ten9) = true ∧
    runsHere 0o66 .c planUnbind .debug (cmd 0o66 9 [14335]) ((ctx9 1 ten9).css (rBind 14335) [place 0 0 1, place 0 13 16383]) = true ∧
    (let s := ctx9 1 ten9;
     let m := cmd 0o63 9 [16383];
      manOk 0o63 .debug m = true ∧ welIdle s = true ∧ s.wel.queue = [] ∧ ctxState s 16383 = 1 ∧
      okay (exec (.contextDisarm .debug m) s) (fun t => ctxState t 16383 = 1) = true) := by decide +kernel

theorem ctxRec_short (s : State) (k : Nat) : 6 + packedLen (ctxRec s k).key.length + packedLen (ctxRec s k).data.length ≤ 4096 := by
  have h : (ctxRec s k).data.length ≤ 13 := by
    unfold ctxRec
    dsimp only
    split
    · exact Nat.zero_le _
    · simp [ctxWords, State.cgs]
  have h1 : (ctxRec s k).key.length = 1 := rfl
  simp only [packedLen, h1]
  omega

/-- CONTEXT CREATE is accepted, whichever free context Welana takes. -/
def createMsg : List Word := cmd 0o60 9 [0, maskW 8 31, 5, 0, 0, 0, 9, 0, 0, 0, 0, 0, place 0 11 1]

/-- The state in which Welana begins it. -/
def createS : State := begun .debug createMsg ten9

/-- The context's words for context k, and the change. -/
def created (k : Nat) (s : State) : State :=
  s.css (rCtx k 0) (newWords createS (msgTen .debug createMsg) (createMsg.drop 1) ++ List.replicate 19 0)

theorem create_plan {k} (h : choose (freeCtxs createS) = some k) (hf : firstErr (createChecks false .debug createMsg createS) = none) :
    ∃ c, planContextCreate false .debug createMsg createS = .chg c ∧ c.adm = none ∧ c.shaped = [k] ∧ c.apply = created k ∧
      c.recs = fun u => [ctxRec u k] := by
  unfold planContextCreate
  simp only [h]
  exact ⟨_, orErr_none hf, rfl, rfl, rfl, rfl⟩

theorem css_wel (off : Nat) (ws : List Word) (s : State) : (s.css off ws).wel = s.wel := by
  induction ws generalizing off s with
  | nil => rfl
  | cons w l ih => exact (ih (off + 1) (s.cs off w)).trans rfl

/-- The words of context k after the change are those written. -/
theorem created_words (k : Nat) (s : State) (i : Nat) (hi : i < 13) : (created k s).cg (rCtx k i) =
    (newWords createS (msgTen .debug createMsg) (createMsg.drop 1)).getD i 0 := by
  have hl : (newWords createS (msgTen .debug createMsg) (createMsg.drop 1)).length = 13 := by decide +kernel
  have e : rCtx k i = rCtx k 0 + i := rfl
  rw [created, cg_css, if_pos (by rw [e, List.length_append, hl, List.length_replicate]; omega), e, Nat.add_sub_cancel_left,
    List.getD_eq_getElem?_getD, List.getElem?_append_left (by omega), ← List.getD_eq_getElem?_getD]

/-- The shape of a context that is created depends on its words, its tenant and the groups alone. -/
theorem created_shape {k : Nat} (hk : k < 16384) (s : State) (ht : s.cb (rTen 9 0) 2 = false) (hg : s.wel.groups = 0) :
    shapeOk (created k s) k = true := by
  have hw : ctxWords (created k s) k = newWords createS (msgTen .debug createMsg) (createMsg.drop 1) := by
    have hl : (newWords createS (msgTen .debug createMsg) (createMsg.drop 1)).length = 13 := by decide +kernel
    refine List.ext_getElem (by rw [hl]; simp [ctxWords, State.cgs]) fun i h1 h2 => ?_
    simp only [ctxWords, State.cgs, List.getElem_map, List.getElem_range]
    have := created_words k s i (by simpa [ctxWords, State.cgs] using h1)
    rw [show rCtx k 0 + i = rCtx k i from rfl, this, List.getD_eq_getElem?_getD, List.getElem?_eq_getElem h2]
    rfl
  have hc : ctxTenant (created k s) k = 9 := by
    have := created_words k s 0 (by decide)
    simp only [ctxTenant, State.cf, this]
    decide +kernel
  have hn : (created k s).cb (rTen 9 0) 2 = false := by
    simp only [State.cb, created, cg_css] at ht ⊢
    rw [if_neg (by simp only [rTen, rCtx, relBlk, ctxBlk]; omega)]; exact ht
  have hG : ∀ c, groupOf (created k s) c = 0 := fun c => by
    rw [groupOf, created, css_wel, hg]; simp [fld]
  simp only [shapeOk, hw, hc, tenSealed, hn, groupsUsed, groupMask, hG, Bool.false_eq_true, if_false]
  decide +kernel

theorem witness_ContextCreate_rest : next1 0o60 .debug createMsg ten9 = true ∧ ctxState createS 0 = 0 ∧
    firstErr (createChecks false .debug createMsg createS) = none ∧ createS.cb (rTen 9 0) 2 = false ∧ createS.wel.groups = 0 ∧
    fld ((newWords createS (msgTen .debug createMsg) (createMsg.drop 1)).getD 0 0) 12 14 ≠ 0 ∧ orderB createS = true ∧
    (journaled .debug createMsg noHide createS).wel.deltaFails = false ∧
    (storeBank (journaled .debug createMsg noHide createS)).deltas = [] := by decide +kernel

theorem witness_ContextCreate : manOk 0o60 .debug createMsg = true ∧ Turn .debug createMsg ten9 ∧
    ∃ c, Passed .c createMsg (planContextCreate false .debug createMsg createS) createS c ∧
      deltaBad c (journaled .debug createMsg noHide createS) = false ∧ StoreOrder createS := by
  obtain ⟨hn, h0, hf, ht, hg, hz, ho, hd, hb⟩ := witness_ContextCreate_rest
  obtain ⟨k, hm, hk⟩ := choose_some (xs := freeCtxs createS)
    (List.ne_nil_of_mem (a := 0) (List.mem_filter.mpr ⟨List.mem_range.mpr (by decide), decide_eq_true h0⟩))
  obtain ⟨hkr, hks⟩ := List.mem_filter.mp hm
  obtain ⟨c, h1, h2, h3, h4, h5⟩ := create_plan hk hf
  refine ⟨(next1_spec hn).1, (next1_spec hn).2, c, ⟨h1, ?_, fun h => absurd h (by decide), Or.inr ?_⟩, ?_, orderB_spec ho⟩
  · rw [admitChg, h2, h3, h4]
    simp [created_shape (List.mem_range.mp hkr) createS ht hg]
  · intro he
    rw [h4] at he
    have h6 : ctxState (created k createS) k = 0 := by rw [he]; simpa using hks
    simp only [ctxState, State.cf, created_words k createS 0 (by decide)] at h6
    exact hz h6
  · rw [deltaBad, h5, hd, takes_one _ _ hb (ctxRec_short _ k)]
    rfl

/-- BIND is accepted, here where Welana takes binding 0. -/
def bindMsg : List Word := cmd 0o65 9 [place 1 1 1 ||| place 2 15 16383 ||| place 28 35 8, place 0 13 16383]
def bindS0 : State := ses9 0 (ctx9 1 ten9)
def bindS : State := begun .debug bindMsg bindS0
def freeB : List Nat := (List.range 14336).filter fun b => !bindS.cb (rBind b) 0
def bound0 (s : State) : State := s.css (rBind 0) [setBit (opW bindMsg 1) 0 true, opW bindMsg 2]

theorem witness_Bind_rest : next1 0o65 .debug bindMsg bindS0 = true ∧ bound0 bindS ≠ bindS ∧ orderB bindS = true ∧
    (journaled .debug bindMsg noHide bindS).wel.deltaFails = false ∧
    (storeBank (journaled .debug bindMsg noHide bindS)).deltas = [] := by decide +kernel

theorem witness_Bind (hc : choose freeB = some 0) : manOk 0o65 .debug bindMsg = true ∧ Turn .debug bindMsg bindS0 ∧
    ∃ c, Passed .c bindMsg (planBind false .debug bindMsg bindS) bindS c ∧
      deltaBad c (journaled .debug bindMsg noHide bindS) = false ∧ StoreOrder bindS := by
  obtain ⟨hn, hne, ho, hd, hb⟩ := witness_Bind_rest
  simp only [freeB] at hc
  refine ⟨(next1_spec hn).1, (next1_spec hn).2, ?_⟩
  unfold planBind
  simp only [hc]
  refine ⟨_, ⟨orErr_none (by decide +kernel), rfl, fun h => absurd h (by decide), Or.inr hne⟩, ?_, orderB_spec ho⟩
  rw [deltaBad, hd, takes_one _ _ hb (by decide)]
  rfl

/-- What else a management command meets (R491): one that changes nothing, one whose admission fails, and one whose delta fails to
program. -/
theorem witness_Runs :
    changes 0o61 planContextSet .debug (cmd 0o61 9 [16383, 0]) (ctx9 1 ten9)
      (fun c => decide (admitChg c (begun .debug (cmd 0o61 9 [16383, 0]) (ctx9 1 ten9)) = none ∧
        c.apply (begun .debug (cmd 0o61 9 [16383, 0]) (ctx9 1 ten9)) = begun .debug (cmd 0o61 9 [16383, 0]) (ctx9 1 ten9))) = true ∧
    (let msg := cmd 0o61 9 [16383, place 1 1 1, place 8 8 1 ||| place 20 31 4095];
     let s := ctx9 1 ten9;
      changes 0o61 planContextSet .debug msg s (fun c => admitChg c (begun .debug msg s) = some 0o203) = true ∧
      okay (exec (.contextSet .debug msg) s) (fun t => t.cgs (rDbgMbx + 0o1000) 1 = [resHead 0o61 0 9 0o203] ∧ t.wel.journal = []) = true) ∧
    (let s := seg9.modWel fun w => { w with deltaFails := true };
     let msg := cmd 0o41 9 [place 0 7 7];
      changes 0o41 planSegmentFree .debug msg s (fun c => (admitChg c (begun .debug msg s)).isNone && decide (c.apply (begun .debug msg s) ≠ begun .debug msg s) &&
        deltaBad c (journaled .debug msg noHide (begun .debug msg s))) = true ∧
      okay (exec (.segmentFree .debug msg) s) (fun t => t.cgs (rDbgMbx + 0o1000) 1 = [resHead 0o41 0 0o17 0] ∧
         t.wel.journal.map JEntry.cmd = [0o41, 0o417]) = true) := by decide +kernel

/-- An unassigned code is answered when it is its turn. -/
theorem witness_UnassignedCommand :
    (let s := manS.cs (rMbx 4095) 7;
      welIdle s = true ∧ s.wel.queue = [] ∧ cmdAssigned (msgCmd (s.cgs (rMbx 4095) 1)) = false ∧
      okay (exec (.mailboxDoorbell .mgmt (.tenant 4095) (place 0 0 1)) s) (fun t => t.wel.queue = [] ∧
        t.cg (rMbx 4095 + 32) = resHead 0 0 1 0) = true) ∧
    (let s := manS.cs (rMbx 4095) (place 0 8 1);
      welIdle s = true ∧ cmdAssigned 1 = true ∧ s.wel.queue = []) := by decide +kernel

/-- The commands that only read; a query of TENANT CREATE. -/
def readS : State := (ctx9 1 ten9).modWel fun w =>
  { w with journal := [{ seqno := 3, time := 0, src := 0, srcId := 0, role := 3, cmd := 1, err := 0, tscope := 9, odig := [], detail := [],
                         chain := [] }],
           notices := [(9, [{ code := 4, detail := 5, time := 6 }])] }

theorem witness_ReadingCommands :
    (welIdle readS = true ∧ readS.wel.queue = []) ∧
    (manOk 1 .debug (cmd 1 0 []) = true ∧ (firstErr (opening readS .debug (cmd 1 0 []) [] 1 false)).isNone = true) ∧
    (let m := cmd 2 9 [0, 3, 7];
      manOk 2 .debug m = true ∧ (firstErr (opening readS .debug m [full, full, full] 1 true)).isNone = true ∧
      asKernel readS .debug 1 = false ∧ (jVisible readS .debug m).length = 1 ∧ dbl (opW m 1) (opW m 2) = 3) ∧
    (let m := cmd 4 9 [20];
      manOk 4 (.tenant 9) m = true ∧
      (firstErr (form (.tenant 9) m [full] ++ [(!roleOk readS (.tenant 9) m 4 true, 3, 0), (kernelZero readS (.tenant 9) 4 m, 4, 0)])).isNone = true ∧
      okay (exec (.noticeRead (.tenant 9) m) readS) (fun t => noticesOf t 9 = []) = true) ∧
    (let m := cmd 5 9 [place 0 2 1, 16383];
      manOk 5 .debug m = true ∧ (firstErr (opening readS .debug m [maskW 0 2, full] 1 true)).isNone = true ∧
      ctxState readS 16383 ≠ 0 ∧ isConf readS .debug = true) ∧
    (let m := cmd 3 8 (cmd 0o20 8 [0, 0]);
      manOk 3 .debug m = true ∧ msgNW m + 1 = m.length ∧ fld (m.headD 0) 30 35 = 0 ∧ 2 ≤ m.length ∧ roleOk readS .debug m 1 true = true ∧
      kernelZero readS .debug 1 m = false ∧ tenBusy readS 8 false = false ∧ (queryPlan .debug (m.drop 1) readS).isSome = true ∧
      (queryPlan .debug [place 0 8 1] readS).isNone = true) := by decide +kernel

theorem witness_NetworkCommands :
    runsHere 0o100 .c planSessionInstall .debug (cmd 0o100 0 (16383 :: place 3 14 9 :: List.replicate 8 0)) ten9 = true ∧
    refusedHere 0o105 planStreamSet .debug (cmd 0o105 0 ((place 0 1 1 ||| place 2 11 63) :: 0 :: 0 :: 0 :: 0 :: List.replicate 12 (place 8 35 99))) manS 7 =
      true ∧
    refusedHere 0o100 planSessionInstall .debug (cmd 0o100 0 (16384 :: place 3 14 9 :: List.replicate 8 0)) ten9 7 = true ∧
    runsHere 0o101 .c planSessionRetire .debug (cmd 0o101 0 [16383]) (ses9 0 ten9) = true ∧
    runsWith keyWord eraseKey 0o102 .c planKeyInstall .debug (cmd 0o102 9 ((place 0 13 16383 ||| place 14 14 1) :: List.replicate 9 5)) (ses9 0 ten9) = true ∧
    runsHere 0o103 .q planKeySelect .debug (cmd 0o103 9 [place 0 13 16383 ||| place 14 14 1]) (ses9 0 ten9) = true ∧
    runsHere 0o104 .c planPortSet .debug (cmd 0o104 0 [place 0 1 3 ||| place 2 13 0o201, 1, 5]) manS = true ∧
    runsHere 0o105 .c planStreamSet .debug (cmd 0o105 0 ((place 0 1 0 ||| place 2 11 1023) :: List.replicate 8 0))
      (manS.cs (stBlk 1023 + 1) 5) = true ∧
    runsHere 0o105 .c planStreamSet .debug (cmd 0o105 0 ((place 0 1 1 ||| place 2 11 63) :: 0 :: 0 :: 0 :: 0 :: List.replicate 12 (place 8 35 100))) manS = true ∧
    runsHere 0o105 .c planStreamSet .debug (cmd 0o105 0 [place 0 1 2 ||| place 2 11 1023, 0, 0, 0])
      (manS.cs (ethBlk + 0o72000 + 2 * 1023) 5) = true ∧
    runsHere 0o106 .c planTimeSet .debug (cmd 0o106 0 [place 22 22 1, 4, 5]) manS = true ∧
    runsHere 0o120 .c planChannelBind .debug (cmd 0o120 9 [place 0 3 11 ||| place 4 8 15, place 0 11 9 ||| place 16 33 1]) ten9 = true ∧
    runsHere 0o121 .c planChannelUnbind .debug (cmd 0o121 9 [place 0 3 11 ||| place 4 8 15])
      (ten9.cs (rMVBIND 11 15) (place 0 11 9 ||| place 12 12 1)) = true := by decide +kernel

/-- A staged image of a kind, whose header says version 7, and its job. -/
def image7 (k : Nat) : List Octet := [0o101, 0o130, 0o111, 0o115, 1, BitVec.ofNat 8 (16 * k + 1), 0, 0, 0, 7] ++ zeros 300

def staged7 (k t i : Nat) (on : Bool) : Staged :=
  { kind := k, tenant := t, index := i, minlvl := 0, newIndex := 255, win := 3, first := 64, words := 8, image := image7 k, active := on,
    swTime := 0 }

def withStaged (x : Staged) (s : State) : State := s.modWel fun w => { w with staged := [x] }

/-- Staging ends, an image is abandoned, and each kind takes effect. The signature of an image is checked by a constant without a
value (log entry 36), so that the acceptance of FIRMWARE STAGE has no closed witness; its refusal has. -/
theorem witness_FirmwareReplacement :
    refusedHere 0o140 planFirmwareStage .debug (cmd 0o140 0 [0, 4]) manS 5 = true ∧
    (let j : LJob := ⟨.debug, 0o140, 0, 0, 1⟩;
     let s := (withStaged (staged7 0 0 0 false) manS).modWel fun w => { w with ljobs := [j] };
      (s.wel.ljobs.find? fun j => j.code = 0o140 && fld (mkW j.a) 0 2 = 0 && fld (mkW j.a) 11 18 = 0) = some j ∧ srcOk j.src = true ∧
      (s.wel.staged.find? fun x => x.kind = 0 && x.tenant = 0 && x.index = 0) = some (staged7 0 0 0 false) ∧ imgVersion (image7 0) = 7 ∧
      okay (exec (.firmwareStageComplete 0 0) s) (fun t => t.wel.ljobs = []) = true) ∧
    runsHere 0o141 .c planFirmwareActivate .debug (cmd 0o141 0 [place 0 2 2]) (withStaged (staged7 2 0 0 false) manS) = true ∧
    runsHere 0o142 .q planFirmwareAbandon .debug (cmd 0o142 0 [place 0 2 2]) (withStaged (staged7 2 0 0 false) manS) = true ∧
    (let s := (withStaged (staged7 3 0 0 true) manS).modWel fun w => { w with bankSwitch := some 77 };
      s.wel.bankSwitch = some 77 ∧ (s.wel.staged.find? fun x => x.kind = 3 && x.active) = some (staged7 3 0 0 true) ∧
      s.wel.bankDone = false ∧ liveBefore s (fun _ => true) 77 = false) ∧
    (let s := withStaged (staged7 2 0 0 true) (manS.setE 143 (Engine.reset.modRun fun r => { r with inReset := false }));
      (s.wel.staged.find? fun x => x.kind = 2 && x.active) = some (staged7 2 0 0 true) ∧ atRest s 143 = true ∧
      fld (s.cg (rCSSTAT 143)) 0 11 ≠ imgVersion (image7 2)) ∧
    (let s := withStaged (staged7 0 0 0 true) (manS.setE 143 (Engine.reset.modRun fun r => { r with inReset := false }));
      mayLeave s 143 = true ∧ bit (s.cg (rENGGEN 143)) 0 = false ∧
      okay (exec (.mantleEngineSwitch 143) s) (fun t => bit (t.cg (rENGGEN 143)) 0) = true) ∧
    (let s := withStaged (staged7 4 9 5 true) (ten9.cs (rCREMAP 15) (place 0 0 1 ||| place 1 12 9 ||| place 13 20 5 ||| place 21 28 6));
      bit (s.cg (rCREMAP 15)) 0 = true ∧ fld (s.cg (rCREMAP 15)) 1 12 = 9 ∧
      (s.wel.staged.find? fun x => x.kind = 4 && x.active && x.tenant = 9 && x.index = fld (s.cg (rCREMAP 15)) 13 20) =
        some (staged7 4 9 5 true) ∧
      liveBefore s (fun k => ctxTenant s k = 9) 0 = false) ∧
    (let s := (withStaged (staged7 1 0 0 true) manS).csf rMPSTAT 1 2 2;
      fld (s.cg rMPSTAT) 1 2 = 2 ∧ okay (exec .welanaSwitchTime s) (fun t => fld (t.cg rMPSTAT) 0 0 = 1) = true) := by decide +kernel

theorem witness_UnitsAndPlatform :
    (let m := cmd 0o160 0 [place 0 3 6 ||| place 4 11 11];
      manOk 0o160 .debug m = true ∧ welIdle manS = true ∧ manS.wel.queue = [] ∧ retireJob manS .debug m = none ∧
      (firstErr (retireChecks .debug m (begun .debug m manS))).isNone = true ∧ unitKind m = 6 ∧ (begun .debug m manS).wel.deltaFails = false ∧
      (let s := manS.modWel fun w => { w with deltaFails := true }; (firstErr (retireChecks .debug m (begun .debug m s))).isNone = true ∧
        okay (exec (.unitRetire .debug m) s) (fun t => t.cgs (rDbgMbx + 0o1000) 1 = [resHead 0o160 0 0o17 0] ∧ !(t.mover 11).retired) = true)) ∧
    (let m := cmd 0o160 0 [place 0 3 0 ||| place 4 11 143];
      (firstErr (retireChecks .debug m manS)).isNone = true ∧ unitKind m = 0 ∧ (admission (without (unitEngs manS 0 143) manS) [] []).isNone = true) ∧
    runsHere 0o161 .l planUnitRestore .debug (cmd 0o161 0 [place 0 3 6 ||| place 4 11 11])
      (manS.modMover 11 fun m => { m with retired := true }) = true ∧
    (let j : LJob := ⟨.debug, 0o161, (place 0 3 6 ||| place 4 11 11 : Word).toNat, 0, 1⟩;
     let s := (manS.modMover 11 fun m => { m with retired := true }).modWel fun w => { w with ljobs := [j] };
      (s.wel.ljobs.find? fun j => j.code = 0o161 && fld (mkW j.a) 0 3 = 6 && fld (mkW j.a) 4 11 = 11) = some j ∧
      okay (exec (.unitRestoreComplete 6 11 true) s) (fun t => !(t.mover 11).retired) = true) ∧
    (let s := manS.setE 143 (Engine.reset.modRun fun r => { r with inService := false, retCause := 4 });
      (s.e 143).run.inService = false ∧ (s.e 143).run.retCause ≠ 0 ∧ 11 ∉ s.wel.clusterDead ∧ (s.e 143).run.autoRestored = none ∧
      okay (exec (.engineAutoRestore 143 true) s) (fun t => (t.e 143).run.inService) = true) ∧
    (let s := manS.setE 143 (Engine.reset.modRun fun r => { r with inService := false, retCause := 4, autoRestored := some 5 });
      (s.e 143).run.autoRestored = some 5 ∧ s.net.devTime < 5 + 24 * 3600 * 64 * 10 ^ 9 ∧
      okay (exec (.engineAutoRestore 143 true) s) (fun t => !(t.e 143).run.inService ∧ (t.e 143).run.retCause = 0) = true) ∧
    (let s := manS.modWel fun w => { w with rerunDue := true }; s.wel.rerunDue = true ∧ s.wel.failed = []) ∧
    runsHere 0o162 .c planGroupsSet .debug (cmd 0o162 0 [place 30 32 1 ||| place 33 35 1]) manS = true ∧
    runsHere 0o163 .c planPowerPolicy .debug (cmd 0o163 0 [place 0 1 3 ||| place 4 17 0o30]) manS = true ∧
    refusedHere 0o163 planPowerPolicy .debug (cmd 0o163 0 [place 2 3 3]) manS 7 = true ∧
    runsHere 0o170 .c planPlatformSet .debug (cmd 0o170 0 [place 0 1 1, 0, 0, 0]) manS = true ∧
    (welUp manS = true ∧ vok manS = true ∧ recsLen (standing (storeBank manS).recs) ≤ baseMax ∧ okay (exec .storeRebase manS) (fun t => t.wel.bankInUse) = true) := by decide +kernel

/-- A pair partner, and a device of role standby with a witness. -/
def pairS : State := manS.cs (rSes 16383 0) (place 0 0 1 ||| place 1 2 2)

def witS : State :=
  ((manS.cs (rSes 16383 0) (place 0 0 1 ||| place 1 2 1 ||| place 15 16 2)).csf rPAIRSTAT 0 1 2).modWel fun w =>
    { w with witness := 16383, witnessEn := true, queue := [⟨.network 16383, cmd 0o165 0 [place 0 0 1, 0]⟩] }

def grantS : State := manS.modWel fun w => { w with grants := [(8, some ⟨2, 9, 5, 100⟩)] }

/-- As with images, the acceptance of DEBUG GRANT has no closed witness: its signature is checked by a constant without a value. -/
theorem witness_PairingAndGrants :
    runsHere 0o164 .c planPairing .debug (cmd 0o164 0 [place 0 1 1 ||| place 2 5 12 ||| place 6 19 16383, 0]) pairS = true ∧
    runsHere 0o164 .c planPairing .debug (cmd 0o164 0 [place 0 1 2 ||| place 2 5 12 ||| place 6 19 16383, 0])
      (((pairS.csf rPAIRSTAT 0 1 1).csf rPAIRSTAT 4 4 1).modWel fun w => { w with partner := 16383, partnerRole := 2, ackSync := true }) = true ∧
    runsHere 0o165 .q planWitnessGrant (.network 16383) (cmd 0o165 0 [place 0 0 1, 0]) witS = true ∧
    refusedHere 0o166 planDebugGrant .debug (cmd 0o166 0 (List.replicate 12 0)) manS 0o20 = true ∧
    runsHere 0o167 .q planDebugRevoke .debug (cmd 0o167 0 [8]) grantS = true ∧
    (grantS.wel.grants = [(8, some ⟨2, 9, 5, 100⟩)] ∧ 100 < 2 ^ 36 - 1 ∧
      okay (exec .grantExpiry grantS) (fun t => t.net.devTime = 101 * (64 * 10 ^ 9)) = true) ∧
    (let s := { grantS with net := { grantS.net with devTime := 101 * (64 * 10 ^ 9) }, sys := { grantS.sys with sable := true, sableEmul := true } };
      okay (exec .grantExpiry s) (fun t => t.wel.grants = s.wel.grants) = true ∧
      okay (exec .sableWake s) (fun t => t.wel.grants.all fun p => p.2.isNone) = true) := by decide +kernel

/-- StoreKeepsItsOrder: a state at reset meets its premise, and the bank of one at VOK takes a first record. -/
theorem witness_StoreKeepsItsOrder :
    (let s := setBank false (newBank (storeKey manS) false 1 0 []) manS; let rs : List StoreRec := [⟨1, [0], [1]⟩];
      orderB .reset = true ∧ vok s = true ∧ rs ≠ [] ∧ ((storeBank s).addDelta (storeKey s) 1 rs).fits = true ∧
      (storeBank s).deltas = [] ∧ (storeBank s).jseq = 0) := by decide +kernel

/-! ## Ports -/

/-- Octets, written as numbers. -/
def oct (xs : List Nat) : List Octet := xs.map (BitVec.ofNat 8)

/-- The address of the partner and of port 3, and their IPv4 addresses. -/
def macP : List Octet := oct [2, 0, 0, 0, 0, 9]
def mac3 : List Octet := oct [2, 0, 0, 0, 0, 3]
def ipP : List Octet := oct [10, 0, 0, 9]
def ip3 : List Octet := oct [10, 0, 0, 3]

/-- A management-ready device whose port 3 is up: VLAN 5 in entry 63, IPv4 address 3; transmission is ungated. -/
def netS : State :=
  ((((((manS.cs (portBlk 3) (place 0 0 1 ||| place 5 16 5)).cs (rPSTAT 3) (place 0 0 1)).css (portBlk 3 + 2) (lanesOf mac3)).cs
    (portBlk 3 + 0o117) (place 0 11 5 ||| place 12 12 1)).css (portBlk 3 + 0o203) (lanesOf ip3)).cs (portBlk 3 + 0o224) (place 3 3 1)).csf
    bootBlk 2 2 1

/-- Session 16383 of kind 1 with the debug role's data, at the partner on port 3. -/
def sesN (kind role : Nat) (s : State) : State :=
  (s.css (rSes 16383 0) [place 0 0 1 ||| place 1 2 kind ||| place 3 14 9 ||| place 15 16 role ||| place 24 24 1,
    place 0 11 5 ||| place 23 24 3 ||| place 25 26 3, place 0 15 7]).css (rSes 16383 3) (lanesOf macP ++ lanesOf ipP)

def key7 : KeySlot := { KeySlot.reset with loaded := true, key := List.replicate 32 7, salt := [1, 2, 3, 4] }

def withKey (k : KeySlot) (s : State) : State := s.modNet fun n => { n with keys := [(keyIdx 16383 0, k)] }

def sesS : State := withKey key7 (sesN 1 2 netS)

/-- A frame that has arrived whole at instant 1000. -/
def rx (os : List Octet) : RxFrame := { octets := padFrame os, fcsOk := true, fecBad := false, fragmented := false, fragBad := false, arrival := 1000 }

/-- A datagram to the port's address, in a frame. -/
def udpFrame (dp : Nat) (d : List Octet) : RxFrame :=
  rx (frameOf mac3 macP 3 5 none etIp4 (ip4Of ipP ip3 17 64 (udpOf ipP ip3 7 dp d)))

/-- A Septeg datagram of the partner with sequence number 9, no payload and this tag. -/
def sgHead (ty : Nat) : List Octet := sgHeader 0 0 ty 16383 9 0 6 0
def sgFrame (ty : Nat) (tag : List Octet) : RxFrame := udpFrame 0o145030 (sgHead ty ++ tag)

/-- The tag that the session's key gives that datagram, and two others. -/
def tag6 : List Octet := (gcmSeal key7.key (sgNonce key7.salt 0 0 9) (sgHead 6) []).2
def tagA : List Octet := zeros 16
def tagB : List Octet := List.replicate 16 1

/-- The datagram with the right tag, in a frame without a UDP checksum, where such frames pass. -/
def sesZ : State := sesS.csf (ethBlk + 0o40000) 16 16 1
def f6 : RxFrame :=
  let d := sgHead 6 ++ tag6
  { octets := frameOf mac3 macP 3 5 none etIp4 (ip4Of ipP ip3 17 64 (beOctets 2 7 ++ beOctets 2 0o145030 ++ beOctets 2 40 ++ beOctets 2 0 ++ d)),
    fcsOk := true, fecBad := false, fragmented := false, fragBad := false, arrival := 1000 }

/-- An ARP request for an IPv4 address, and an echo request of ICMP. -/
def arpFor (ip : List Octet) : List Octet := oct [0, 1, 8, 0, 6, 4, 0, 1] ++ macP ++ ipP ++ zeros 6 ++ ip
def arpFrame (ip : List Octet) : RxFrame := rx (frameOf (List.replicate 6 255) macP 3 5 none etArp (arpFor ip))
def echoFrame (ty : Nat) : RxFrame :=
  let m := fun (c : Nat) => oct [ty, 0] ++ beOctets 2 c ++ oct [1, 2, 3, 4]
  rx (frameOf mac3 macP 3 5 none etIp4 (ip4Of ipP ip3 1 64 (m (cksum (m 0)))))

/-- The frame passes checks 1 to 6 and is not for the slow path. -/
def passes (s : State) (f : RxFrame) : Bool :=
  let q := parseFrame f.octets
  decide (refusedBy s 3 f = none) && decide (streamOf s 3 f.octets q = none) && !isSlow f.octets q

def ctr1 (off : Nat) (o : Host.Outcome State Fault Refusal) : Bool := okay o fun t => t.cg2 off = 1

/-- Checks 1 to 5, the slow path, checks 8 and 9. -/
theorem witness_FrameReception :
    listens netS 3 ∧
    (refusedBy netS 3 { arpFrame ip3 with fragBad := true } = some 2 ∧
      refusedBy (netS.csf (portBlk 3) 2 2 1) 3 { arpFrame ip3 with fecBad := true } = some 1 ∧
      refusedBy netS 3 { arpFrame ip3 with fcsOk := false } = some 2 ∧
      refusedBy netS 3 (rx (frameOf macP macP 0 5 none etIp4 [])) = some 3 ∧
      refusedBy netS 3 (rx (frameOf mac3 macP 0 4095 none etIp4 [])) = some 4 ∧
      refusedBy netS 3 (rx (frameOf mac3 macP 0 5 none 0xFFFF [])) = some 5 ∧
      ctr1 (portCtr 3 5) (exec (.frameReceived 3 (rx (frameOf mac3 macP 0 5 none 0xFFFF []))) netS) = true) ∧
    (let f := arpFrame ip3;
      refusedBy netS 3 f = none ∧ streamOf netS 3 f.octets (parseFrame f.octets) = none ∧ isSlow f.octets (parseFrame f.octets) = true ∧
      okay (exec (.frameReceived 3 f) netS) (fun t => (t.port 3).slowQ = [f] ∧ t.net.devTime = 1000) = true ∧
      ctr1 (portCtr 3 8) (exec (.frameReceived 3 f) (netS.modPort 3 fun x => { x with slowCnt := 1000 })) = true) ∧
    (let f := rx (frameOf mac3 macP 3 5 none etIp4 (ip4Of ipP ipP 17 64 (udpOf ipP ip3 7 0o145030 [])));
      passes netS f = true ∧ ipCheck netS 3 f.octets (parseFrame f.octets) = none ∧
      ctr1 (portCtr 3 9) (exec (.frameReceived 3 f) netS) = true) ∧
    (let f := udpFrame 5 [];
      passes netS f = true ∧ (∃ r, ipCheck netS 3 f.octets (parseFrame f.octets) = some r ∧ udpCheck netS false r.1 r.2.1 r.2.2.1 r.2.2.2 = none) ∧
      ctr1 (portCtr 3 10) (exec (.frameReceived 3 f) netS) = true) := by
  refine ⟨⟨by decide, by decide +kernel, by decide +kernel, by decide +kernel, by decide +kernel⟩, by decide +kernel, by decide +kernel,
    by decide +kernel, by decide +kernel, ?_, by decide +kernel⟩
  exact ⟨_, rfl, by decide +kernel⟩

/-- The datagram that a frame carries to the Septeg port, as its checks read it. -/
def dgramOf (s : State) (f : RxFrame) : Option (List Octet × List Octet × Nat × List Octet) :=
  match ipCheck s 3 f.octets (parseFrame f.octets) with
  | none => none
  | some (src, dst, pr, u) => (udpCheck s false src dst pr u).map fun x => (src, dst, x.1, x.2)

/-- The Septeg engine's checks 1 to 6: a length that is wrong, a session of another kind, a slot not loaded, a repeated number, a tag
that is not the key's, and a TIME request that passes. -/
theorem witness_SeptegFormat : passes sesS (udpFrame 0o145030 (zeros 33)) = true ∧
    dgramOf sesS (udpFrame 0o145030 (zeros 33)) = some (ipP, ip3, 7, zeros 33) ∧
    ctr1 (sgCtr 1) (exec (.frameReceived 3 (udpFrame 0o145030 (zeros 33))) sesS) = true := by decide +kernel

def headOk (d : List Octet) : Bool :=
  decide (u8 d 0 / 16 = 1 ∧ u8 d 0 % 4 = 0 ∧ u16 d 2 = 16383 ∧ u8 d 15 = 0) && tyAssigned (u8 d 1) && decide (d.length = 32) &&
    decide (u16 d 10 = 0)

theorem witness_SeptegHeader : headOk (sgHead 1 ++ tagA) = true ∧ headOk (sgHead 6 ++ tagA) = true ∧ headOk (sgHead 6 ++ tagB) = true := by
  decide +kernel
theorem witness_SeptegSession : sesAdmits sesS 16383 1 0 3 false ipP ip3 7 = false ∧ sesAdmits sesS 16383 6 0 3 false ipP ip3 7 = true ∧
    (keyOf (sesN 1 2 netS) 16383 0).loaded = false ∧ replayOk { key7 with h := 9, marks := 1 } 9 = false ∧ replayOk key7 9 = true := by
  decide +kernel

theorem witness_SeptegFrame : passes sesS (sgFrame 6 tagA) = true ∧ passes sesS (sgFrame 6 tagB) = true ∧
    dgramOf sesS (sgFrame 1 tagA) = some (ipP, ip3, 7, sgHead 1 ++ tagA) ∧
    dgramOf sesS (sgFrame 6 tagA) = some (ipP, ip3, 7, sgHead 6 ++ tagA) ∧
    dgramOf sesS (sgFrame 6 tagB) = some (ipP, ip3, 7, sgHead 6 ++ tagB) := by decide +kernel

theorem witness_SeptegRefused : ctr1 (sgCtr 2) (exec (.frameReceived 3 (sgFrame 1 tagA)) sesS) = true ∧
    ctr1 (sgCtr 3) (exec (.frameReceived 3 (sgFrame 6 tagA)) (sesN 1 2 netS)) = true ∧
    ctr1 (sgCtr 4) (exec (.frameReceived 3 (sgFrame 6 tagA)) (withKey { key7 with h := 9, marks := 1 } sesS)) = true := by decide +kernel

/-- Of two tags one is not the key's, and the sealing's own tag opens; in a state whose other checks pass. -/
theorem witness_SeptegTag : (∀ k n a, gcmOpen k n a [] tagA = none ∨ gcmOpen k n a [] tagB = none) ∧
    ∀ k n a, gcmOpen k n a [] (gcmSeal k n a []).2 = some [] := by
  constructor
  · intro k n a
    by_cases h : gcmTag (aesKeys k) n a [] = tagA
    · right
      have hb : gcmTag (aesKeys k) n a [] ≠ tagB := fun h' => absurd (h.symm.trans h') (by decide)
      simp [gcmOpen, hb]
    · left
      simp [gcmOpen, h]
  · intro k n a
    simp [gcmOpen, gcmSeal, xorO]

theorem witness_SeptegOpens : passes sesZ f6 = true ∧ tag6.length = 16 ∧ dgramOf sesZ f6 = some (ipP, ip3, 7, sgHead 6 ++ tag6) :=
  ⟨by decide +kernel, by decide +kernel, Eq.refl (some (ipP, ip3, 7, sgHead 6 ++ tag6))⟩

theorem witness_EliminationReset :
    (tget StreamRec.reset netS.net.streams 1023).active = false ∧
    (let s := netS.modNet fun n => { n with streams := [(1023, { StreamRec.reset with active := true, last := 7, gen := 8 })] };
      (tget .reset s.net.streams 1023).active = true ∧
      okay (exec (.eliminationResetTimeout 1023) s) (fun t => (tget .reset t.net.streams 1023).gen = 8 ∧ t.net.devTime = 7) = true) := by
  decide +kernel

def slow (f : RxFrame) (s : State) : State := s.modPort 3 fun x => { x with slowQ := [f] }

def pay (f : RxFrame) : List Octet := f.octets.drop (parseFrame f.octets).at_

theorem witness_SlowPath :
    (let s := slow (arpFrame ip3) netS; (s.port 3).slowQ = [arpFrame ip3] ∧ (parseFrame (arpFrame ip3).octets).ety = 0x0806 ∧
      arpReply s 3 (pay (arpFrame ip3)) ≠ none ∧
      okay (exec (.slowPathFrame 3) s) (fun t => (txQ t 3 3).map (fun x => x.octets.take 6) = [macP]) = true) ∧
    (let s := slow (arpFrame ipP) netS; arpReply s 3 (pay (arpFrame ipP)) = none ∧
      ctr1 (portCtr 3 8) (exec (.slowPathFrame 3) s) = true) ∧
    (let s := slow (echoFrame 8) netS; (parseFrame (echoFrame 8).octets).ety = 0x0800 ∧ echo4Reply s 3 (pay (echoFrame 8)) ≠ none ∧
      portLink s 3 = true ∧ (txQ s 3 3).length < 64) ∧
    (let s := slow (echoFrame 0) netS; echo4Reply s 3 (pay (echoFrame 0)) = none) := by decide +kernel

/-- A neighbour solicitation and an echo request of ICMPv6, and one whose checksum is wrong. -/
def ip6A : List Octet := zeros 15 ++ [3]
def ip6P : List Octet := zeros 15 ++ [9]
def six : State := (netS.css (portBlk 3 + 0o220) (lanesOf ip6A)).cs (portBlk 3 + 0o224) (place 7 7 1)
def frame6 (hop : Nat) (m : List Octet) : RxFrame := rx (frameOf mac3 macP 3 5 none etIp6 (ip6Of ip6P ip6A 58 hop m))
def nsol : RxFrame := frame6 255 (icmp6Of ip6P ip6A 135 (zeros 4 ++ ip6A))

theorem witness_SlowPath6 :
    (parseFrame nsol.octets).ety = 0x86DD ∧ icmp6Reply (slow nsol six) 3 (pay nsol) ≠ none ∧
    icmp6Reply (slow (frame6 64 (icmp6Of ip6P ip6A 128 (zeros 4))) six) 3 (pay (frame6 64 (icmp6Of ip6P ip6A 128 (zeros 4)))) ≠ none ∧
    icmp6Reply (slow (frame6 64 (zeros 8)) six) 3 (pay (frame6 64 (zeros 8))) = none := by decide +kernel

/-- A frame of a class, and a port with frames queued and on the line. -/
def tx (k : Nat) : TxFrame := { octets := zeros 300, cls := k, frags := 0 }
def queued (k : Nat) (s : State) : State := setTxQ 3 k [tx k] s
def onLine (k e : Nat) (s : State) : State := s.modPort 3 fun x => { x with onLine := some (tx k), lineEnd := e }

/-- Preemption is active on port 3, and class 7 alone is express. -/
def preS : State := (((netS.csf (portBlk 3) 4 4 1).csf (rPSTAT 3) 2 2 1).csf (portBlk 3 + 0o14) 0 7 1).modNet fun n => { n with devTime := 10000 }

theorem witness_LinkAndTransmission :
    (let s := netS.csf (rPSTAT 3) 0 0 0; portEn s 3 = true ∧ portLink s 3 = false ∧ s.sys.heldInReset = false ∧
      okay (exec (.linkUp 3) s) (fun t => portLink t 3) = true) ∧
    (let s := onLine 0 5 (queued 7 netS); portEn s 3 = true ∧ portLink s 3 = true ∧
      okay (exec (.linkDown 3) s) (fun t => t.cg2 (portCtr 3 13) = 2 ∧ (t.port 3).txq = []) = true) ∧
    (mayTransmit netS 3 = true ∧ (netS.port 3).onLine = none ∧ bestClass netS 3 = none) ∧
    (let s := queued 7 (queued 0 netS); mayTransmit s 3 = true ∧ (s.port 3).onLine = none ∧ (s.port 3).preempted = none ∧
      bestClass s 3 = some 7) ∧
    (let s := queued 7 (onLine 0 20000 preS); mayTransmit s 3 = true ∧ (s.port 3).onLine = some (tx 0) ∧ mustPreempt s 3 (tx 0) = true ∧
      preemptable s 3 7 = false ∧ startable (bringTo (preemptPoint s 3 + lineTime s 3 16) s) 3 7 = true ∧ (s.port 3).preempted = none ∧
      okay (exec (.frameTransmit 3) s) (fun t => (t.port 3).onLine = some (tx 7)) = true) ∧
    (let s := onLine 0 20000 netS; mayTransmit s 3 = true ∧ mustPreempt s 3 (tx 0) = false ∧ s.cb (portBlk 3) 20 = false ∧
      okay (exec (.frameTransmit 3) s) (fun t => t.cg2 (portCtr 3 11) = 1 ∧ t.net.devTime = 20000) = true) ∧
    (let s := netS.csf (portBlk 3) 4 4 1; portLink s 3 = true ∧ s.cb (portBlk 3) 4 = true ∧ s.cb (rPSTAT 3) 2 = false ∧ (s.port 3).vfy < 3 ∧
      okay (exec (.preemptionVerify 3 true) s) (fun t => t.cb (rPSTAT 3) 2) = true) := by decide +kernel

/-! ## gPTP -/

/-- A gPTP message of a kind in a frame; its origin time is 0, its vector is better than the device's own. -/
def gptp (ty : Nat) (body : List Octet) : RxFrame := rx (gptpFrame netS 3 ty 0 0 4 0 body)
def annBody : List Octet := zeros 13 ++ zeros 17

/-- The device follows the clock at port 3; its device time is 9. -/
def followS (n : Nat) (f : RxFrame) : State :=
  (slow f netS).modNet fun x => { x with gm := some (3, []), goodSync := n, devTime := 100000000 }

/-- The answers of the partner to a peer delay request, and the ports that await them. -/
def pdResp (ty : Nat) : RxFrame := { gptp ty (zeros 10 ++ clockId netS ++ beOctets 2 4) with arrival := 300 }
def askedS (f : RxFrame) : State :=
  (slow f netS).modPort 3 fun x => { x with pdSent := some (4, 100), pdResp := if f = pdResp 10 then some (4, 0, 0, 300) else none }

theorem witness_PeerDelay :
    (let f := pdResp 3; let s := askedS f;
      (s.port 3).slowQ = [f] ∧ (parseFrame f.octets).ety = 0x88F7 ∧ 34 ≤ (pay f).length ∧ u8 (pay f) 4 = 0 ∧
      (s.port 3).pdSent = some (4, 100) ∧ pdelayMine s 3 (pay f) = true ∧ u8 (pay f) 0 % 16 = 3 ∧ u8 (pay f) 6 / 2 % 2 = 0 ∧
      ptpRead ((pay f).drop 34) = some 0 ∧ okay (exec (.gptpFrameReceived 3) s) (fun t => (t.port 3).delay = 100) = true) ∧
    (let f := pdResp 10; let s := askedS f;
      pdelayMine s 3 (pay f) = true ∧ (s.port 3).pdResp = some (4, 0, 0, 300) ∧ u16 (pay f) 30 = 4 ∧ u8 (pay f) 0 % 16 = 10 ∧
      ptpRead ((pay f).drop 34) = some 0) ∧
    (let f := gptp 0 (List.replicate 10 255); let s := followS 7 f;
      s.net.gm = some (3, []) ∧ u8 (pay f) 0 % 16 = 0 ∧ u8 (pay f) 6 / 2 % 2 = 0 ∧ ptpRead ((pay f).drop 34) = none ∧
      okay (exec (.gptpFrameReceived 3) s) (fun t => t.net.gm = none) = true) ∧
    (let s := netS.csf rDTSTAT 0 2 1; s.net.gm = none ∧ fld (s.cg rDTSTAT) 0 2 = 1 ∧
      okay (exec .gptpMasterLost s) (fun t => fld (t.cg rDTSTAT) 0 2 = 2) = true) ∧
    (let s := netS; s.net.gm = none ∧ fld (s.cg rDTSTAT) 0 2 ≠ 1 ∧ fld (s.cg rDTSTAT) 0 2 ≠ 4) := by decide +kernel

theorem witness_PrecisionTime :
    okay (exec (.peerDelayMeasurement 3 77) netS) (fun t => (t.port 3).delay = 77 ∧ (txQ t 3 7).length = 1) = true ∧
    (let f : TxFrame := { octets := gptpFrame netS 3 0 0x0200 0 7 253 (zeros 10), cls := 7, frags := 0 }
     let s := netS.modPort 3 fun x => { x with onLine := some f, sfd := 64000000064, lineEnd := 64000000100 }
     mayTransmit s 3 = true ∧ mustPreempt s 3 f = false ∧ u16 f.octets 12 = 0x88F7 ∧ u8 f.octets 14 % 16 = 0 ∧
       bit (mkW (u8 f.octets 20)) 34 = true ∧ u16 f.octets 44 = 7 ∧ u8 f.octets 47 = 253 ∧
       okay (exec (.frameTransmit 3) s) (fun t => ((t.port 3).onLine.map fun g => cut g.octets 48 10) = some [0, 0, 0, 0, 0, 1, 0, 0, 0, 1]) = true) ∧
    (let f := gptp 11 annBody; let s := slow f netS;
      (s.port 3).slowQ = [f] ∧ (parseFrame f.octets).ety = 0x88F7 ∧ 64 ≤ (pay f).length ∧ u8 (pay f) 4 = 0 ∧ u8 (pay f) 0 % 16 = 11 ∧
      s.net.gm = none ∧ octLt (annVector (pay f)) (ownVector s) = true ∧ s.net.gmBad = [] ∧
      okay (exec (.gptpFrameReceived 3) s) (fun t => fld (t.cg rDTSTAT) 3 6 = 1) = true) ∧
    (let f := gptp 2 (zeros 20); let s := slow f netS; u8 (pay f) 0 % 16 = 2 ∧ portLink s 3 = true ∧ (txQ s 3 7).length < 63 ∧
      okay (exec (.gptpFrameReceived 3) s) (fun t => (txQ t 3 7).length = 1) = true) ∧
    (let f := gptp 0 (zeros 10); let s := followS 7 f;
      34 ≤ (pay f).length ∧ u8 (pay f) 0 % 16 = 0 ∧ u8 (pay f) 6 / 2 % 2 = 0 ∧ ptpRead ((pay f).drop 34) = some 0 ∧ corrOf (pay f) = 0 ∧
      7 ≤ s.net.goodSync ∧ (f.arrival : Int).natAbs ≤ 6400) ∧
    (let f := { gptp 0 (zeros 10) with arrival := 64000001 }; let s := followS 7 f;
      64000000 < (f.arrival : Int).natAbs ∧ s.cb rRUCTL 0 = false ∧ (s.csf rRUCTL 0 0 1).cb rRUCTL 0 = true ∧
      okay (exec (.gptpFrameReceived 3) s) (fun t => t.net.devTime = 35999999) = true) ∧
    (netS.net.gm = none ∧ netS.net.prio1 < 255 ∧
      okay (exec .gptpSyncSend netS) (fun t => fld (t.cg rDTSTAT) 0 2 = 3 ∧ (txQ t 3 7).length = 2) = true) ∧
    (let s := netS.modNet fun x => { x with gm := some (3, []) };
      s.net.gm.isSome = true ∧ okay (exec .gptpMasterLost s) (fun t => t.net.gm = none) = true) ∧
    (let s := netS.modNet fun x => { x with prio1 := 255 }; 255 ≤ s.net.prio1) := by decide +kernel

/-! ## Septeg transactions -/

/-- A transaction of session 16383 that has passed the checks, and a state in which it waits. -/
def sg (ty : Nat) (pl : List Octet) : SgIn :=
  { ses := 16383, port := 3, arrival := 1000, ty := ty, seq := 9, txid := 6, frameLen := 100, fragmented := false, payload := pl }
def waitS (ty : Nat) (pl : List Octet) (s : State) : State := s.modNet fun n => { n with inq := [sg ty pl] }

/-- A PUBLISH of one block of two words, with stamp 0; its payload without the block. -/
def pub (n : Nat) (bs : List Octet) : List Octet := zeros 9 ++ oct [n] ++ bs
def blk (nd : Bool) (ws : List Word) : List Octet := beOctets 2 ((if nd then 32768 else 0) + 7) ++ beOctets 1 ws.length ++ packWords ws

/-- Segment 5 of tenant 9, of 8192 words from word 4096 on, whose first slot is absent; context 16383 with its input there. -/
def segD : List Word := [4096, place 0 2 1 ||| place 3 4 3 ||| place 6 17 9 ||| place 20 21 2 ||| place 22 35 15, 0, 0, 0, 0, 0, 0]
def lineW (ws : List Word) : HLine := { hl .i 0 0 with ws := ws, chk := rsCheck ws }
def segS (s : State) : State :=
  s.modHome fun h => { h with lines := [(512, some (lineW (place 0 0 1 :: ws8.tail))), (577, some (lineW (0 :: 0 :: segD.take 6)))] }

/-- A binding of block 7 of the session to two words at offset 0 of the context's input; for transmission where `tx`. -/
def bound (tx : Nat) (s : State) : State :=
  (((ctx9 1 (segS s)).css (rCtx 16383 10) [place 0 7 5 ||| place 8 23 4, place 0 7 5 ||| place 8 23 4]).css (rBind 14335)
    [place 0 0 1 ||| place 1 1 tx ||| place 2 15 16383 ||| place 16 27 7 ||| place 28 35 2, place 0 13 16383])

def theBinding (tx : Bool) : Binding := { b := 14335, tx := tx, ses := 16383, block := 7, len := 2, ctx := 16383, off := 0 }

/-- The transaction with this stamp and arrival. -/
def stamped (lo : Word) (arr : Nat) : SgIn := { sg 1 (packWords [0, lo] ++ oct [1] ++ blk false [1, 2]) with arrival := arr }

/-- The hypotheses of a block that is served, with its window and whether it waits; its descriptor has been looked up. -/
def served (x : SgIn) (s : State) (m : Int) (waitsIt : Bool) : Bool :=
  let pl := x.payload
  let hi := (unpackWords 2 (pl.take 9)).getD 0 0
  let lo := (unpackWords 2 (pl.take 9)).getD 1 0
  let y : Block := ⟨7, false, [1, 2]⟩
  let u := descTouch .septeg 9 5 (without1 x s)
  decide (waits s 1 = some x ∧ 10 ≤ pl.length ∧ u8 pl 9 = 1 ∧ parseBlocks 1 (pl.drop 10) = some [y] ∧
    ((bindings s).filter fun b => !b.tx && b.ses = x.ses && b.block = y.block) = [theBinding false] ∧ x.frameLen ≤ publishLimit s x.port ∧
    x.fragmented = false ∧ ctxState s 16383 ≠ 0 ∧ perOk s 16383 = true ∧ ctxTenant s 16383 = 9 ∧ fld (s.cg (rCtx 16383 10)) 0 7 = 5 ∧
    blockWaits (without1 x s) (theBinding false) hi lo x.arrival y = waitsIt ∧ windowOf u 16383 (ofTime hi lo) = m ∧
    inArea u 16383 = some ⟨4096, 8192, false⟩ ∧ Area.has u ⟨4096, 8192, false⟩ (8 * frLen u 16383 * (m % 3).toNat) 5 = true)

def pubS (x : SgIn) : State := (bound 0 netS).modNet fun n => { n with inq := [x] }

theorem witness_Publish :
    (let x := stamped 0 1000; let s := pubS x; let u := descTouch .septeg 9 5 (without1 x s);
      served x s 0 false = true ∧ (x.arrival : Int) < tickOf u 16383 1 * 1600000 ∧ (u.rel.tick : Int) ≤ tickOf u 16383 1 ∧
      (0 : Int) ≤ windowOf u 16383 x.arrival + 1) ∧
    (let x := stamped 8000000 1000; let s := pubS x;
      served x s 1 true = true ∧
      okay (exec .septegPublish s) (fun t => t.net.inq = [] ∧
        t.net.held = [⟨14335, 16383, 0, 8000000, 1000, ⟨7, false, [1, 2]⟩⟩]) = true) ∧
    (let x := stamped 0 8000000; let s := pubS x; let u := descTouch .septeg 9 5 (without1 x s);
      served x s 0 false = true ∧ tickOf u 16383 1 * 1600000 ≤ (x.arrival : Int) ∧ ctr1 (sgCtr 8) (exec .septegPublish s) = true) ∧
    (let x := stamped 16000000 1000; let s := pubS x; let u := descTouch .septeg 9 5 (without1 x s);
      served x s 2 false = true ∧ (x.arrival : Int) < tickOf u 16383 3 * 1600000 ∧ (u.rel.tick : Int) ≤ tickOf u 16383 3 ∧
      windowOf u 16383 x.arrival + 1 < (2 : Int) ∧ ctr1 (sgCtr 9) (exec .septegPublish s) = true) := by decide +kernel

theorem witness_PublishLine :
    (let x := stamped 0 1000; let s := pubS x; let u := descTouch .septeg 9 5 (without1 x s); let h := lineW (place 0 0 1 :: ws8.tail);
      u.hl 512 = some h ∧ h.st = .i ∧ h.poison = false ∧ h.ws.length = 8 ∧ h.chk = rsCheck h.ws ∧
      (∀ q ∈ u.eng, q.2.l1Any 512 = none) ∧ comingHome u 512 = none ∧ lineHeld u 512 = false ∧ granting u 512 = false ∧
      lockedWin u 4096 = false ∧ u.home.tents = [] ∧ u.home.watches = [] ∧ u.home.cwatches = [] ∧
      bit (h.ws.getD 0 0) 0 = true ∧
      okay (exec .septegPublish s) (fun t =>
        (peeks t 4096 5) = [place 2 9 1, 0, 0, 1, 2] ∧ t.cg2 (sgCtr 13) = 2) = true) := by decide +kernel

theorem witness_PublishRefused :
    (waits netS 1 = none ∧ waits netS 2 = none ∧ waits netS 3 = none ∧ waits netS 4 = none ∧ waits netS 5 = none ∧ waits netS 6 = none) ∧
    ctr1 (sgCtr 1) (exec .septegPublish (waitS 1 (pub 0 []) netS)) = true ∧
    ctr1 (sgCtr 10) (exec .septegPublish (waitS 1 (pub 1 (blk true [])) netS)) = true ∧
    ctr1 (sgCtr 7) (exec .septegPublish (waitS 1 (pub 1 (blk false [1, 2, 3])) (bound 0 netS))) = true ∧
    ctr1 (sgCtr 6) (exec .septegPublish ((bound 0 netS).modNet fun n =>
      { n with inq := [{ sg 1 (pub 1 (blk false [1, 2])) with fragmented := true }] })) = true := by decide +kernel

/-- READ of word 4096 and WRITE of it through descriptor 5: refused at a limit and for a role, and accepted; and the unanswered write. -/
def acc (n : Nat) (more : List Octet) : List Octet := oct [5, 0] ++ beOctets 4 0 ++ beOctets 2 n ++ more

def accS (role ty : Nat) (pl : List Octet) : State := waitS ty pl (sesN 1 role (segS netS))

theorem witness_ReadsAndWrites :
    (let x := sg 2 (acc 8 []); let s := accS 2 2 (acc 8 []); let u := without1 x s;
      waits s 2 = some x ∧ early u false x = none ∧ (looked x s).net.jobs = [] ∧ descChecked x false s = .inr 4096 ∧
      u16 x.payload 6 = 8 ∧ linesOf 4096 8 = [512] ∧ reqOut (looked x s) .septeg 512 = false ∧
      okay (exec .septegRead s) (fun t => t.home.net.length = 1) = true) ∧
    (let x := sg 3 (acc 2 (zeros 9)); let s := accS 2 3 (acc 2 (zeros 9)); let u := without1 x s;
      waits s 3 = some x ∧ early u true x = none ∧ descChecked x true s = .inr 4096 ∧ linesOf 4096 2 = [512]) ∧
    (let x := sg 2 (acc 8 []); let s := sesN 1 2 (waitS 2 (acc 8 []) netS);
      waits s 2 = some x ∧ early (without1 x s) false x = none ∧ descChecked x false s = .inl 4) ∧
    (let x := sg 3 (acc 2 (zeros 9)); let s := accS 1 3 (acc 2 (zeros 9)); early (without1 x s) true x = some 3) ∧
    (let x := sg 2 (acc 313 []); let s := accS 2 2 (acc 313 []); early (without1 x s) false x = some 2) := by decide +kernel

def job1 : SgJob :=
  { ses := 16383, txid := 6, write := true, first := 4096, count := 2, words := [1, 2], got := [], todo := [], await := some 512,
    tenant := 9, since := 0 }

theorem witness_WriteUnanswered :
    (let s := netS.modNet fun n => { n with jobs := [job1] }; s.net.jobs = [job1] ∧
      okay (exec .septegWriteUnanswered s) (fun t => t.net.jobs = [] ∧ t.net.devTime = 4096000) = true) ∧
    (let j := { job1 with await := none }; j.write = true → j.await = none) := by decide +kernel

/-- MAILBOX: while its command runs, repeated, another; the result kept; a length that is wrong; a command and an unassigned code. -/
def mail (m : SgMbx) (pl : List Octet) (s : State) : State := (waitS 4 pl s).modNet fun n => { n with mbx := [(16383, m)] }

theorem witness_Mailbox :
    (let s := mail ⟨some 6, none, none⟩ [] netS; waits s 4 = some (sg 4 []) ∧ (tget .reset s.net.mbx 16383).busy = some 6 ∧
      okay (exec .septegMailbox s) (fun t => t.net.inq = []) = true) ∧
    (let s := mail ⟨some 5, none, none⟩ [] netS; (tget .reset s.net.mbx 16383).busy = some 5) ∧
    (let s := mail ⟨none, some (6, [1]), none⟩ [] netS; (tget .reset s.net.mbx 16383).kept = some (6, [1])) ∧
    (let s := mail ⟨none, none, none⟩ [] netS; 2 * (sg 4 []).payload.length / 9 = 0 ∧ (tget .reset s.net.mbx 16383).kept = none) ∧
    (let pl := packWords (cmd 0o1 0 [0]);
      2 * pl.length / 9 = 2 ∧ pl.length = 9 ∧ netS.wel.queue = [] ∧ cmdAssigned (msgCmd (unpackWords 2 pl)) = true ∧
      okay (exec .septegMailbox (mail .reset pl netS)) (fun t => t.wel.queue = [⟨.network 16383, cmd 0o1 0 [0]⟩]) = true) ∧
    (let pl := packWords (cmd 0o777 0 []);
      2 * pl.length / 9 = 1 ∧ pl.length = (9 * 1 + 1) / 2 ∧ cmdAssigned (msgCmd (unpackWords 1 pl)) = false ∧ welIdle netS = true ∧
      okay (exec .septegMailbox (mail .reset pl netS)) (fun t => t.wel.queue = [] ∧ (tget .reset t.net.mbx 16383).busy = some 6) = true) ∧
    (let s := netS.modNet fun n => { n with mbx := [(16383, ⟨some 6, none, some [1]⟩)] };
      (tget .reset s.net.mbx 16383).ready = some [1] ∧ (tget .reset s.net.mbx 16383).busy = some 6 ∧
      okay (exec (.mailboxResponse 16383) s) (fun t => (tget .reset t.net.mbx 16383).kept = some (6, [1])) = true) ∧
    ((tget .reset netS.net.mbx 16383).ready = none) := by decide +kernel

/-- TIME, HEARTBEAT, and the blocks of a commit. -/
theorem witness_TimeAndHeartbeat :
    ((sg 6 [0]).payload ≠ [] ∧ waits (waitS 6 [0] netS) 6 = some (sg 6 [0])) ∧
    (let s := waitS 6 [] sesS; vok s = true ∧ sesValid s 16383 = true ∧ sesKind s 16383 = 1 ∧
      keyDead (keyOf s 16383 (sesTkid s 16383)) = false ∧ s.cb (rSes 16383 1) 22 = false ∧ portLink s (sesF s 16383 1 23 24) = true ∧
      (txQ s 3 0).length < 64 ∧ sesF s 16383 0 26 28 = 0 ∧
      okay (exec .septegTime s) (fun t => (txQ t 3 0).length = 1 ∧ (keyOf t 16383 0).txc = 1) = true) ∧
    (ctr1 (sgCtr 1) (exec .septegHeartbeat (waitS 5 (zeros 9) netS)) = true ∧
      (let s := waitS 5 (zeros 10) (sesN 1 2 netS); sesKind s 16383 ≠ 2) ∧
      (let s := (waitS 5 (zeros 9 ++ [64]) (sesN 2 0 netS)).modWel fun w => { w with partner := 16383 };
        sesKind s 16383 = 2 ∧ s.wel.partner = 16383 ∧ okay (exec .septegHeartbeat s) (fun t => t.wel.partnerRole = 1) = true)) := by
  decide +kernel

def note1 : OutNote := ⟨16383, 1000, false, 9, 5⟩
def noticeS (s : State) : State := s.modNet fun n => { n with notices := [note1] }

theorem witness_OutputPublish :
    (netS.net.notices = [] ∧ isStandby (noticeS netS) = false ∧ bindings netS = []) ∧
    (let s := noticeS (bound 1 netS);
     let v := descTouch .septeg 9 5 (s.modNet fun y => { y with notices := [] });
      (s.net.notices.find? fun n => n.ctx = 16383) = some note1 ∧
      ((bindings s).filter fun b => b.tx && b.ctx = 16383) = [theBinding true] ∧ sesKind s 16383 ≠ 3 ∧
      readBlock (rdoLines .septeg (blockLines v note1 (theBinding true)).eraseDups v) note1 (theBinding true) ≠ none ∧
      okay (exec (.outputPublish 16383) s) (fun t => t.cg2 (sgCtr 13) = 2 ∧ t.net.notices = []) = true) ∧
    (let n : OutNote := { note1 with outIdx := 6 }; let s := (bound 1 netS).modNet fun y => { y with notices := [n] };
     let v := descTouch .septeg 9 6 (s.modNet fun y => { y with notices := [] });
      n.dropped = false ∧ readBlock (rdoLines .septeg (blockLines v n (theBinding true)).eraseDups v) n (theBinding true) = none ∧
      ctr1 (sgCtr 15) (exec (.outputPublish 16383) s) = true) := by decide +kernel

/-! ## Steps, well-formedness and encodings -/

theorem witness_StepRunsTheFront : base.pending = [] ∧ (-219902325 : Int) ≤ (base.cg rDTRATE).toInt ∧
    okay (step base) (fun t => t.net.devTime = 409) = true ∧
    okay (step { base with pending := [.linkDown 3] }) (fun t => t = base) = true := by decide +kernel

theorem witness_CommandsComplete : wellFormed (.add 143 15 15) = true ∧ wellFormed (.add 144 15 15) = false ∧
    exec (.add 144 15 15) base = .fault .noSuchUnit := ⟨by decide, by decide, rfl⟩

theorem witness_WellFormedQueuesRun : queueOk { base with pending := [.nop 143 255, .linkUp 3] } = true := by decide

theorem witness_ResetIsWellFormed : queueOk .reset = true ∧ (3 < 4 ∧ 143 < 144) := by decide

/-- Each check of the operands refuses an operand out of its range: the largest that passes, and the next. -/
theorem test_engine_operand : wellFormed (.exceptionEntry 143) = true ∧ wellFormed (.exceptionEntry 144) = false := by decide
theorem test_cluster_operand : wellFormed (.slateEntry 11) = true ∧ wellFormed (.slateEntry 12) = false := by decide
theorem test_port_operand : wellFormed (.linkUp 3) = true ∧ wellFormed (.linkUp 4) = false := by decide
theorem test_line_operand : wellFormed (.descriptorLineRewrite (2 ^ 32 - 1)) = true ∧ wellFormed (.descriptorLineRewrite (2 ^ 32)) = false := by
  decide
theorem test_context_operand : wellFormed (.boundaryStaging 16383) = true ∧ wellFormed (.boundaryStaging 16384) = false := by decide
theorem test_tenant_operand : wellFormed (.shedResourcesFree 4095) = true ∧ wellFormed (.shedResourcesFree 4096) = false := by decide
theorem test_session_operand : wellFormed (.heartbeatSend 16383) = true ∧ wellFormed (.heartbeatSend 16384) = false := by decide
theorem test_fields : wellFormed (.mov 0 15 15) = true ∧ wellFormed (.mov 0 16 0) = false ∧ wellFormed (.mov 0 0 16) = false ∧
    wellFormed (.nop 0 255) = true ∧ wellFormed (.nop 0 256) = false ∧ wellFormed (.cust 0 31 0 0) = true ∧ wellFormed (.cust 0 32 0 0) = false ∧
    wellFormed (.ld 0 0 0 15 (2 ^ 18 - 1)) = true ∧ wellFormed (.ld 0 0 0 0 (2 ^ 18)) = false := by decide
theorem test_agent_operand : wellFormed (.seal (.engine 144)) = false ∧ wellFormed (.seal (.mover 12)) = false ∧
    wellFormed (.seal (.mover 11)) = true := by decide
theorem test_message_operand : wellFormed (.health .debug [place 0 8 1]) = true ∧ wellFormed (.health .debug []) = false ∧
    wellFormed (.health .debug [place 0 8 2]) = false ∧ wellFormed (.health (.tenant 4096) [place 0 8 1]) = false ∧
    wellFormed (.health (.network 16384) [place 0 8 1]) = false ∧
    wellFormed (.health .debug (place 0 8 1 :: List.replicate 312 0)) = false := by decide +kernel
theorem test_gate_operand : wellFormed (.gateEntryAdvance true 63) = true ∧ wellFormed (.gateEntryAdvance true 64) = false ∧
    wellFormed (.gateEntryAdvance false 4) = false := by decide
theorem test_line_words : wellFormed (.wrl .septeg 0 ws8) = true ∧ wellFormed (.wrl .septeg 0 []) = false ∧
    wellFormed (.wrm .septeg 0 (2 ^ 32) ws8) = false := by decide
theorem test_tables : wellFormed (.storeDrain 0 8) = false ∧ wellFormed (.cstoreScrub 0 2304) = false ∧ wellFormed (.watch 0 0 5) = false ∧
    wellFormed (.burstUnanswered 4) = false ∧ wellFormed (.channelErrorRate 8) = false ∧ wellFormed (.contextRecordWrite .septeg 0 32 0) = false ∧
    wellFormed (.registerWrite .septeg 0o100000000 0) = false ∧ wellFormed (.moverArm .septeg 0 16 0) = false ∧
    wellFormed (.lkwLock .septeg 16) = false ∧ wellFormed (.programOwnerSlot .septeg 4) = false ∧
    wellFormed (.unitRestoreComplete 6 12 true) = false ∧ wellFormed (.memoryInitComplete 8) = false ∧
    wellFormed (.eliminationResetTimeout 1024) = false ∧ wellFormed (.debugReadWord 4 0 0) = false ∧
    wellFormed (.nearStoreScrub 0 32768) = false ∧ wellFormed (.replacementComplete 8 0) = false ∧
    wellFormed (.firmwareStageComplete 8 0) = false := by decide
theorem test_tenant_word : wellFormed (.tenantRecordWrite .septeg 0o700000 0) = true ∧ wellFormed (.tenantRecordWrite .septeg 0 0) = false := by
  decide

/-- Words written out from R126, R131 and R132: one of each major with an assigned opcode, opcode or major first, then a, b, c or
the constant. -/
theorem test_decode_short :
    decodeParcels 0 .other 0b000000100000000000 0 = .commit 0 0 ∧
    decodeParcels 0 .other 0b000001000100111110 0 = .add 0 3 14 ∧
    decodeParcels 0 .other 0b000010110001011010 0 = .clz 0 5 10 ∧
    decodeParcels 0 .other 0b000011100101100010 0 = .divu 0 6 2 ∧
    decodeParcels 0 .other 0b000100000111110000 0 = .fsub 0 15 0 ∧
    decodeParcels 0 .other 0b000101110100100100 0 = .fcvtFD 0 2 4 ∧
    decodeParcels 0 .other 0b000110010100010010 0 = .segld 0 1 2 ∧
    decodeParcels 0 .other 0b001001111110000111 0 = .cust 0 31 8 7 ∧
    decodeParcels 0 .other 0b000000101100000000 0 = .unassignedOpcode 0 false := by decide

theorem test_decode_immediate :
    decodeParcels 0 .other 0b010000001111111110 0 = .movq 0 3 254 ∧
    decodeParcels 0 .repeatable 0b011000000100000101 0 = .rpt 0 1 5 .repeatable ∧
    decodeParcels 0 .other 0b011100101000010001 0 = .svc 0 10 17 ∧
    decodeParcels 0 .other 0b011111000000000000 0 = .unassignedOpcode 0 false := by decide

theorem test_decode_long :
    decodeParcels 0 .other 0b100000010101100010 0b111111111111111111 = .ld 0 5 6 2 (2 ^ 18 - 1) ∧
    decodeParcels 0 .other 0b100101010101100010 1 = .stc 0 5 6 2 1 ∧
    decodeParcels 0 .other 0b101010000100100000 9 = .addi 0 1 2 0 9 ∧
    decodeParcels 0 .other 0b110000000100000000 9 = .b 0 1 0 9 ∧
    decodeParcels 0 .other 0b110011000000000000 9 = .unassignedOpcode 0 true := by decide

theorem witness_ParcelsRoundTrip :
    (wellFormed (.ld 143 15 14 13 (2 ^ 18 - 1)) = true ∧
      encodeParcels (.ld 143 15 14 13 (2 ^ 18 - 1)) = [0b100000111111101101, 0b111111111111111111]) ∧
    (wellFormed (.add 143 3 14) = true ∧ encodeParcels (.add 143 3 14) = [0b000001000100111110]) ∧
    (143 < 144 ∧ 0b111111000000000000 < 2 ^ 18 ∧
      decodeParcels 143 .other 0b111111000000000000 0 = .unassignedOpcode 143 true) := by decide

/-! ## Forms that complete -/

/-- FormsComplete: the clauses whose hypotheses no state above meets. The others are met in the witnesses of BranchResults,
UnitsAndPlatform, PairingAndGrants, MoverTransfers, GatesAndDeviceTime, FrameReception, EliminationReset, SlowPath,
LinkAndTransmission, PrecisionTime, Publish, ReadsAndWrites, Mailbox, TimeAndHeartbeat, OutputPublish, WriteUnanswered, PairRoles,
PowerAndClocks, sableEntry, ResetsAndDeviceFailure, StartAndRecovery and LocksAndFuses. The acceptance of an image hangs on a
signature, which a constant without a value checks (log entry 36): DEBUG GRANT, OPEN and the recovery loader's install have no closed
witness of it. -/
theorem witness_FormsComplete :
    (let s := manS.modWel fun w => { w with rerunDue := true };
      s.wel.failed = [] ∧ okay (exec .admissionRerun s) (fun t => !t.wel.rerunDue) = true) ∧
    (let j : LJob := ⟨.debug, 0o161, (place 4 11 143 : Word).toNat, 0, 1⟩;
     let s := (manS.setE 143 (Engine.reset.modRun fun r => { r with inService := false })).modWel fun w => { w with ljobs := [j] };
      143 < unitCount 0 ∧ (s.wel.ljobs.find? fun j => j.code = 0o161 && fld (mkW j.a) 0 3 = 0 && fld (mkW j.a) 4 11 = 143) = some j ∧
      okay (exec (.unitRestoreComplete 0 143 true) s) (fun t => (t.e 143).run.inService) = true) ∧
    (let m := cmd 0o160 0 [place 0 3 6 ||| place 4 11 11];
      okay (exec (.unitRetire .debug m) manS) (fun t => fld (t.cg rFLTREC) 11 16 = 0o16 ∧ (t.mover 11).retired) = true) ∧
    (let s := armedOn true (armedOn false chS);
      armed s 11 15 true = true ∧ okay (exec (.shadowDisarm .mgmt 11 15) s) (fun t => !armed t 11 15 true ∧ t.answer = .ok) = true) ∧
    (let x : Transfer := ⟨15, 0, 0, false, 0, 0, 1, 9, 1, 2, [], [], [], [], [], 0, false, false⟩;
     let s := armedOn false (chS.modMover 11 fun m => { m with cur := some x });
      (s.mover 11).cur = some x ∧ armed s 11 15 true = false ∧
      okay (exec (.transferEnd 11) s) (fun t => (t.mover 11).cur = none ∧ fld (t.cg (rCHSTAT 11 15)) 3 7 = 0) = true) ∧
    (let s := netS.modNet fun n => { n with streams := [(1023, { StreamRec.reset with active := true })] };
      (tget .reset s.net.streams 1023).active = true) ∧
    (base.boot.phase = .idle ∧ base.sys.porHeld = false ∧ base.sys.heldInReset = false ∧ base.sys.sable = false ∧ vok base = false ∧
      okay (exec (.coldStart ⟨false, true⟩) base) (fun t => t.boot.phase = .halted) = true) ∧
    (inRecovery.boot.phase = .recovery ∧ inRecovery.boot.recReset = false ∧
      (0 < 4 ∧ portEn inRecovery 0 = false ∧ inRecovery.sys.heldInReset = false) ∧
      okay (exec .recoveryAnnounce inRecovery) (fun t => t.boot.recOut.map Prod.fst = some 1) = true) := by decide +kernel

end Sys2Proof.Tests
end

section
/-! SUPPORT. Words: the integer results of R136 as arithmetic on words. -/

namespace Sys2Proof.Machine

open Sys2Proof.Claims

/-! ### Sums, differences and ranges -/

theorem not_inRange (z : Int) : (!inRange z) = ovf z := by
  rw [inRange, ovf, ← decide_not, decide_eq_decide]
  omega

/-- The sum of three naturals wraps to the sum of words. -/
theorem mkW_add (x y : Word) (c : Nat) : mkW (x.toNat + y.toNat + c) = x + y + BitVec.ofNat 36 c := by
  simp [mkW, BitVec.ofNat_add]

/-- The difference of naturals wraps to the difference of words. -/
theorem mkZ_sub (x y : Word) (c : Nat) :
    mkZ ((x.toNat : Int) - y.toNat - c) = x - y - BitVec.ofNat 36 c := by
  simp [mkZ, Int.sub_eq_add_neg, BitVec.sub_eq_add_neg, BitVec.ofInt_add, BitVec.ofInt_neg]

theorem bit_zero_eq_msb (x : Word) : bit x 0 = x.msb := bit_eq_getMsbD x (by decide)

/-! ### Shifts -/

theorem mkW_shiftLeft (x : Word) (n : Nat) : mkW (x.toNat * 2 ^ min n 36) = shlW x n := by
  apply BitVec.eq_of_toNat_eq
  by_cases h : 36 ≤ n
  · rw [toNat_mkW, shlW, if_pos h, Nat.min_eq_right h, Nat.mul_mod_left]
    rfl
  · rw [toNat_mkW, shlW, if_neg h, Nat.min_eq_left (by omega), BitVec.toNat_shiftLeft, Nat.shiftLeft_eq]

theorem mkW_shiftRight (x : Word) (n : Nat) : mkW (x.toNat / 2 ^ min n 36) = shrW x n := by
  have hlt : x.toNat / 2 ^ min n 36 < 2 ^ 36 := Nat.lt_of_le_of_lt (Nat.div_le_self _ _) x.isLt
  apply BitVec.eq_of_toNat_eq
  rw [toNat_mkW, Nat.mod_eq_of_lt hlt]
  by_cases h : 36 ≤ n
  · rw [shrW, if_pos h, Nat.min_eq_right h, Nat.div_eq_of_lt x.isLt]
    rfl
  · rw [shrW, if_neg h, Nat.min_eq_left (by omega), BitVec.toNat_ushiftRight, Nat.shiftRight_eq_div_pow]

/-- Past its last bit an arithmetic shift leaves the sign alone. -/
theorem mkZ_sign (x : Word) : mkZ (sgn x / 2 ^ 36) = if x.msb then BitVec.allOnes 36 else 0 := by
  have hlo : -2 ^ 35 ≤ sgn x := BitVec.le_toInt x
  have hhi : sgn x < 2 ^ 35 := BitVec.toInt_lt
  rw [BitVec.msb_eq_toInt, show x.toInt = sgn x from rfl]
  by_cases h : sgn x < 0
  · have hq : sgn x / 2 ^ 36 = -1 := by omega
    rw [hq, decide_eq_true h, if_pos rfl]
    decide
  · have hq : sgn x / 2 ^ 36 = 0 := by omega
    rw [hq, decide_eq_false h]
    decide

theorem mkZ_sshiftRight (x : Word) (n : Nat) : mkZ (sgn x / 2 ^ min n 36) = sarW x n := by
  by_cases h : 36 ≤ n
  · rw [sarW, if_pos h, Nat.min_eq_right h, mkZ_sign]
  · rw [sarW, if_neg h, Nat.min_eq_left (by omega), mkZ, sgn, BitVec.sshiftRight, Int.shiftRight_eq_div_pow]
    rfl

/-! ### Leading zeros -/

/-- Where the elements before index n satisfy p and the one at n does not, takeWhile keeps n of them. -/
theorem length_takeWhile_range {p : Nat → Bool} {n k : Nat} (hn : n ≤ k) (hp : ∀ i < n, p i = true)
    (hk : n < k → p n = false) : ((List.range k).takeWhile p).length = n := by
  obtain ⟨m, rfl⟩ := Nat.exists_eq_add_of_le hn
  rw [List.range_add, List.takeWhile_append_of_pos (fun i hi => hp i (List.mem_range.1 hi))]
  cases m with
  | zero => simp
  | succ m =>
    have : p n = false := hk (by omega)
    simp [List.range_succ_eq_map, this]

theorem leadingZeros_eq_clzW (y : Word) : leadingZeros y = clzW y := by
  by_cases h : y = 0
  · subst h; decide
  · have h0 : y.toNat ≠ 0 := fun e => h (BitVec.eq_of_toNat_eq e)
    have hlog : y.toNat.log2 < 36 := (Nat.log2_lt h0).2 y.isLt
    rw [clzW, if_neg h]
    apply length_takeWhile_range (by omega)
    · intro i hi
      have hb : y.toNat.testBit (35 - i) = false :=
        Nat.testBit_lt_two_pow ((Nat.log2_lt h0).1 (by omega))
      rw [toNat_testBit y (by omega), show 35 - (35 - i) = i by omega] at hb
      rw [hb]; rfl
    · intro _
      have hb := Nat.testBit_log2 h0
      rw [toNat_testBit y hlog] at hb
      rw [hb]; rfl

/-! ### Octets -/

/-- An octet placed below the word so far is added to it, moved up. -/
theorem toNat_append_eq_add {m n : Nat} (x : BitVec m) (y : BitVec n) :
    (x ++ y).toNat = x.toNat * 2 ^ n + y.toNat := by
  rw [BitVec.toNat_append, ← Nat.shiftLeft_add_eq_or_of_lt y.isLt, Nat.shiftLeft_eq]

theorem toNat_packW (y : Word) :
    (packW y).toNat = (List.range 4).foldl (fun a n => a * 512 + fld y (4 + 8 * n) (11 + 8 * n)) 0 := by
  change BitVec.toNat (w := 1 + 8 + (1 + 8) + (1 + 8) + (1 + 8)) (packW y) = _
  simp only [packW, toNat_append_eq_add]
  simp [fld, Nat.shiftRight_eq_div_pow, List.range_succ]

theorem toNat_unpkW (y : Word) :
    (unpkW y).toNat = (List.range 4).foldl (fun a n => a * 256 + fld y (9 * n + 1) (9 * n + 8)) 0 := by
  change BitVec.toNat (w := 4 + 8 + 8 + 8 + 8) (unpkW y) = _
  simp only [unpkW, toNat_append_eq_add]
  simp [fld, Nat.shiftRight_eq_div_pow, List.range_succ]

theorem mkW_toNat (y : Word) : mkW y.toNat = y := by simp [mkW]

end Sys2Proof.Machine
end

section
/-! SUPPORT. What each shared integer result gives: its word and its flags (R136 to R138). -/

namespace Sys2Proof.Machine

open Sys2Proof.Claims

/-- The bits of ST that a result writes: those it sets, and those under its mask. -/
def AluR.flag (r : AluR) (b : Nat) : Option Bool :=
  if bit r.o b then some true else if bit r.m b then some (bit r.v b) else none

/-- What an integer result gives: its word, and what it writes to each bit of ST. -/
structure AluR.Gives (r : AluR) (res : Option Word) (fl : Nat → Option Bool) : Prop where
  res_eq : r.res = res
  flag_eq : ∀ b, b < 36 → r.flag b = fl b

/-- A bit of ST after the result has landed. -/
theorem AluR.bit_landed_st (r : AluR) (a : Nat) (x : Regs) {b : Nat} (hb : b < 36) :
    bit (r.landed a x).st b = (r.flag b).getD (bit x.st b) := by
  simp only [AluR.landed, AluR.flag, bit_or _ _ hb, bit_and _ _ hb, bit_not _ hb]
  cases bit r.o b <;> cases bit r.m b <;> simp

theorem AluR.flag_mask_zero (res : Option Word) (v : Word) (b : Nat) : (AluR.mk res 0 v 0).flag b = none := by
  simp [AluR.flag]

/-- One more flag under the mask, in a bit that the flags so far leave zero. -/
theorem AluR.flag_or_bitAt {res : Option Word} {m v : Word} {j b : Nat} {c : Bool} (hj : j < 36) (hb : b < 36)
    (hv : bit v j = false) :
    (AluR.mk res (m ||| maskW j j) (v ||| bitAt j c) 0).flag b =
      if b = j then some c else (AluR.mk res m v 0).flag b := by
  have hm : bit (maskW j j) b = decide (b = j) := by
    rw [bit_maskW hj (Nat.le_refl j) hb, decide_eq_decide]
    omega
  simp only [AluR.flag, bit_or _ _ hb, hm, bit_bitAt hj hb]
  by_cases h : b = j
  · subst h; simp [hv]
  · simp [h]

/-- A sticky flag beside the flags under the mask. -/
theorem AluR.flag_sticky {res : Option Word} {m v : Word} {j b : Nat} {q : Bool} (hj : j < 36) (hb : b < 36) :
    (AluR.mk res m v (bitAt j q)).flag b = if b = j ∧ q = true then some true else (AluR.mk res m v 0).flag b := by
  simp [AluR.flag, bit_bitAt hj hb]

theorem flag_z (res : Option Word) (r : Word) {b : Nat} (hb : b < 36) :
    (AluR.mk res stZ (bitAt 6 (r == 0)) 0).flag b = flagsZ r b := by
  have h := AluR.flag_or_bitAt (res := res) (m := 0) (v := 0) (c := r == 0) (by decide : 6 < 36) hb (bit_zero 6)
  rw [AluR.flag_mask_zero] at h
  simp only [BitVec.ofNat_eq_ofNat, BitVec.zero_or] at h
  exact h

theorem flag_zn (res : Option Word) (r : Word) {b : Nat} (hb : b < 36) :
    (AluR.mk res mZN (znOf r) 0).flag b = flagsZN r b := by
  rw [mZN, stN, znOf, AluR.flag_or_bitAt (by decide) hb (bit_bitAt (by decide) (by decide) _), flag_z res r hb,
    bit_zero_eq_msb]
  rfl

/-- Z and N leave every other bit zero. -/
theorem bit_znOf_other (r : Word) {j : Nat} (hj : j < 36) (h6 : j ≠ 6) (h7 : j ≠ 7) : bit (znOf r) j = false := by
  simp [znOf, bit_or _ _ hj, bit_bitAt _ hj, h6, h7]

theorem flag_znc (res : Option Word) (r : Word) (c : Bool) {b : Nat} (hb : b < 36) :
    (AluR.mk res mZNC (znOf r ||| bitAt 8 c) 0).flag b = flagsZNC r c b :=
  (AluR.flag_or_bitAt (by decide) hb (bit_znOf_other r (by decide) (by decide) (by decide))).trans
    (by rw [← mZN, flag_zn res r hb]; rfl)

theorem flag_znv (res : Option Word) (r : Word) (v : Bool) {b : Nat} (hb : b < 36) :
    (AluR.mk res mZNV (znOf r ||| bitAt 9 v) 0).flag b = flagsZNV r v b :=
  (AluR.flag_or_bitAt (by decide) hb (bit_znOf_other r (by decide) (by decide) (by decide))).trans
    (by rw [← mZN, flag_zn res r hb]; rfl)

theorem flag_zncv (res : Option Word) (r : Word) (c v : Bool) {b : Nat} (hb : b < 36) :
    (AluR.mk res mZNCV (znOf r ||| bitAt 8 c ||| bitAt 9 v) 0).flag b = flagsZNCV r c v b := by
  have h9 : bit (znOf r ||| bitAt 8 c) 9 = false := by
    rw [bit_or _ _ (by decide), bit_znOf_other r (by decide) (by decide) (by decide), bit_bitAt (by decide) (by decide)]
    rfl
  exact (AluR.flag_or_bitAt (by decide) hb h9).trans (by rw [← mZNC, flag_znc res r c hb]; rfl)

/-! ### What each shared result gives (R136, R137) -/

theorem aluPlain_gives (r : Word) : (aluPlain r).Gives (some r) flagsNone :=
  ⟨rfl, fun b _ => AluR.flag_mask_zero _ _ b⟩

theorem aluZN_gives (r : Word) : (aluZN r).Gives (some r) (flagsZN r) := ⟨rfl, fun _ hb => flag_zn _ r hb⟩

theorem aluZNCV_gives (r : Word) (c v : Bool) : (aluZNCV r c v).Gives (some r) (flagsZNCV r c v) :=
  ⟨rfl, fun _ hb => flag_zncv _ r c v hb⟩

theorem aluShift_gives (r : Word) (c : Bool) : (aluShift r c).Gives (some r) (flagsZNC r c) :=
  ⟨rfl, fun _ hb => flag_znc _ r c hb⟩

theorem AluR.Gives.flagsOnly {r : AluR} {res : Option Word} {fl : Nat → Option Bool} (h : r.Gives res fl) :
    r.flagsOnly.Gives none fl := ⟨rfl, h.flag_eq⟩

theorem aluSat_gives (z : Int) : (aluSat z).Gives (some (satW z)) (flagsQ (satW z) z) := by
  refine ⟨rfl, fun b hb => ?_⟩
  have h : (aluSat z).flag b = if b = 10 ∧ (!inRange z) = true then some true else flagsZN (satW z) b := by
    rw [← flag_zn (some (satW z)) (satW z) hb]
    exact AluR.flag_sticky (by decide) hb
  rw [h, not_inRange]
  by_cases h10 : b = 10
  · subst h10; simp [flagsQ, ovf, flagsZN, flagsZ]
  · simp [flagsQ, h10]

theorem addR_gives (x y : Word) (c : Bool) :
    (addR x y c).Gives (some (x + y + BitVec.ofNat 36 c.toNat)) (addFlags x y c) := by
  rw [addR, mkW_add, not_inRange]
  exact aluZNCV_gives _ _ _

theorem subR_gives (x y : Word) (c : Bool) :
    (subR x y c).Gives (some (x - y - BitVec.ofNat 36 c.toNat)) (subFlags x y c) := by
  have hc : decide ((x.toNat : Int) - y.toNat - c.toNat < 0) = decide (x.toNat < y.toNat + c.toNat) := by
    rw [decide_eq_decide]; omega
  rw [subR, hc, mkZ_sub, not_inRange]
  exact aluZNCV_gives _ _ _

/-- The carry of a shift: its bit where the shift is by 1 to 36, else false. -/
theorem shiftCarry_eq (n : Nat) (c : Bool) :
    (if n = 0 ∨ 36 < n then false else c) = (decide (1 ≤ n ∧ n ≤ 36) && c) := by
  by_cases h : n = 0 ∨ 36 < n
  · rw [if_pos h, decide_eq_false (by omega), Bool.false_and]
  · rw [if_neg h, decide_eq_true (by omega), Bool.true_and]

theorem shlR_gives (x : Word) (n : Nat) : (shlR x n).Gives (some (shlW x n)) (flagsZNC (shlW x n) (shlC x n)) := by
  rw [shlR, mkW_shiftLeft, shiftCarry_eq]
  exact aluShift_gives _ _

theorem shrR_gives (x : Word) (n : Nat) : (shrR x n).Gives (some (shrW x n)) (flagsZNC (shrW x n) (shrC x n)) := by
  rw [shrR, mkW_shiftRight, shiftCarry_eq]
  exact aluShift_gives _ _

theorem sarR_gives (x : Word) (n : Nat) : (sarR x n).Gives (some (sarW x n)) (flagsZNC (sarW x n) (sarC x n)) := by
  have hc : (if n = 0 then false else if 36 ≤ n then bit x 0 else bit x (36 - n)) = sarC x n := by
    rw [sarC, bit_zero_eq_msb]
    by_cases h : n = 0
    · rw [if_pos h, decide_eq_false (by omega), Bool.false_and]
    · rw [if_neg h, decide_eq_true (by omega), Bool.true_and]
  rw [sarR, mkZ_sshiftRight, hc]
  exact aluShift_gives _ _

theorem rolR_gives (x : Word) (n : Nat) :
    (rolR x n).Gives (some (x.rotateLeft (n % 36))) (flagsZN (x.rotateLeft (n % 36))) := aluZN_gives _

theorem absR_gives (y : Word) : (absR y).Gives (some (BitVec.ofNat 36 y.toInt.natAbs))
    (flagsZNV (BitVec.ofNat 36 y.toInt.natAbs) (decide (y.toInt = -2 ^ 35))) := by
  have hr : mkZ (sgn y).natAbs = BitVec.ofNat 36 y.toInt.natAbs := BitVec.ofInt_natCast 36 _
  rw [absR, hr]
  exact ⟨rfl, fun _ hb => flag_znv _ _ _ hb⟩

theorem clzR_gives (y : Word) :
    (clzR y).Gives (some (BitVec.ofNat 36 (leadingZeros y))) (flagsZ (BitVec.ofNat 36 (leadingZeros y))) := by
  rw [clzR, ← leadingZeros_eq_clzW]
  exact ⟨rfl, fun _ hb => flag_z _ _ hb⟩

theorem packR_gives (y : Word) : (packR y).Gives (some (packW y)) flagsNone := by
  rw [packR, ← toNat_packW, mkW_toNat]
  exact aluPlain_gives _

theorem unpkR_gives (y : Word) : (unpkR y).Gives (some (unpkW y)) flagsNone := by
  rw [unpkR, ← toNat_unpkW, mkW_toNat]
  exact aluPlain_gives _

/-! ### Special cases of the short format -/

theorem addR_zero_gives (x y : Word) : (addR x y false).Gives (some (x + y)) (addFlags x y false) := by
  simpa using addR_gives x y false

theorem subR_zero_gives (x y : Word) : (subR x y false).Gives (some (x - y)) (subFlags x y false) := by
  simpa using subR_gives x y false

theorem negR_gives (y : Word) : (subR 0 y false).Gives (some (-y)) (subFlags 0 y false) := by
  simpa using subR_zero_gives 0 y

theorem negS_gives (y : Word) : (aluSat (0 - sgn y)).Gives (some (satW (-y.toInt))) (flagsQ (satW (-y.toInt)) (-y.toInt)) := by
  rw [Int.zero_sub]
  exact aluSat_gives (-y.toInt)

end Sys2Proof.Machine
end

section
/-! SUPPORT. What an integer instruction, and one that writes whole registers, leaves on an engine that is ready. -/

namespace Sys2Proof.Machine

open Sys2Proof.Claims

/-- The frame of `Ran` from what a rule of execution says of the registers, the exception and the memory of the engine. -/
theorem Ran.of_parts {e n : Nat} {s t : State} (ho : OnlyEngine e s t)
    (hpc : (t.e e).regs.pc = ((s.e e).regs.pc + n) % 2 ^ 37) (hexc : (t.e e).pipe.exc = none)
    (hrest : rest (t.e e).regs = rest (s.e e).regs)
    (hmem : ∃ dc lb li, (t.e e).mem = { (s.e e).mem with dcache := dc, lbuf := lb, l1i := li }) : Ran e n s t := by
  obtain ⟨dc, lb, li, hm⟩ := hmem
  refine ⟨ho, hpc, hexc, hrest, ?_⟩
  rw [hm]
  exact ⟨rfl, rfl, rfl, rfl, rfl⟩

theorem onEngine_next {e : Nat} {ok : Bool} (he : e < 144) (hok : ok = true) (t : State) :
    onEngine e ok t = .next t := by
  simp [onEngine, he, hok]

theorem okAB_true {a b : Nat} (ha : a < 16) (hb : b < 16) : okAB a b = true := decide_eq_true ⟨ha, hb⟩

theorem AluR.wOf_landed_none {r : AluR} (h : r.res = none) (a : Nat) (x : Regs) (n : Nat) :
    wOf (r.landed a x) n = wOf x n := by
  simp [AluR.landed, wOf, h]

theorem AluR.wOf_landed_some {r : AluR} {v : Word} (h : r.res = some v) (a : Nat) (x : Regs) (n : Nat) :
    wOf (r.landed a x) n = if n = a then v else wOf x n := by
  by_cases hn : n = a
  · subst hn; simp [AluR.landed, wOf, h]
  · simp [AluR.landed, wOf, h, hn, tget_tset_ne _ _ _ (Ne.symm hn)]

/-- An integer instruction of one cycle writes what its result gives. -/
theorem integerDoes_of_aluI {e len a : Nat} {i : Instr} {rds : List Dst} {ws fl : Bool} {f : Regs → AluR}
    {res : Regs → Option Word} {flags : Regs → Nat → Option Bool}
    (hx : ∀ s, exec i s = .next (aluI i e len a none rds ws fl (fun g => f g.regs) s))
    (hf : ∀ x, (f x).Gives (res x) (flags x)) :
    IntegerDoes e len i (fun x => (res x).map (Prod.mk a)) flags := by
  intro s hs
  obtain ⟨ho, hregs, hpipe, -, hmem⟩ := aluI_ready (i := i) (a := a) (rds := rds) (ws := ws) (fl := fl)
    (f := fun g => f g.regs) hs (fun g k hk => by rw [hk.regs])
  obtain ⟨-, hissue, -, -, -, -, -, -, hpend, -⟩ := ready_iff.1 hs
  refine ⟨_, hx s, Ran.of_parts ho (by rw [hregs]; rfl) ?_ (by rw [hregs]; rfl) hmem, ?_, ?_, ?_, ?_, ?_⟩
  · rw [hpipe]; exact (canIssue_parts hissue).1
  · rw [hpipe]; exact hpend
  · rw [hregs]; rfl
  · rw [hregs]; rfl
  · intro n
    have hres := (hf (s.e e).regs).res_eq
    rw [Engine.w, hregs]
    cases hv : res (s.e e).regs with
    | none =>
      simp only [hv]
      exact AluR.wOf_landed_none (hres.trans hv) a (s.e e).regs n
    | some v =>
      simp only [hv]
      exact AluR.wOf_landed_some (hres.trans hv) a (s.e e).regs n
  · intro b hb
    rw [← (hf _).flag_eq b hb, ← AluR.bit_landed_st _ a _ hb, hregs]

section
variable {e a b : Nat} {i : Instr} {rx rst ws fl : Bool} {f : Word → Word → Bool → AluR}

/-- A short-format instruction that writes W`a`. -/
theorem shortDoes_of_shortI {res : Word → Word → Bool → Word} {flags : Word → Word → Bool → Nat → Option Bool}
    (he : e < 144) (ha : a < 16) (hb : b < 16)
    (hx : ∀ s, exec i s = onEngine e (okAB a b) (shortI i e a b rx rst ws fl f s))
    (hf : ∀ x y c, (f x y c).Gives (some (res x y c)) (flags x y c)) : ShortDoes e a b i res flags :=
  integerDoes_of_aluI (f := fun x => f (wOf x a) (wOf x b) (bit x.st 8))
    (fun s => (hx s).trans (onEngine_next he (okAB_true ha hb) _)) fun _ => hf _ _ _

/-- A short-format instruction that writes flags alone. -/
theorem shortTests_of_shortI {flags : Word → Word → Nat → Option Bool}
    (he : e < 144) (ha : a < 16) (hb : b < 16)
    (hx : ∀ s, exec i s = onEngine e (okAB a b) (shortI i e a b rx rst ws fl f s))
    (hf : ∀ x y c, (f x y c).Gives none (flags x y)) : ShortTests e a b i flags :=
  integerDoes_of_aluI (f := fun x => f (wOf x a) (wOf x b) (bit x.st 8))
    (fun s => (hx s).trans (onEngine_next he (okAB_true ha hb) _)) fun _ => hf _ _ _

end

/-! ## Words that land together -/

/-- The results of an instruction that writes whole registers, all landing at cycle t. -/
def wordPends (ws : List (Dst × Word)) (t : Nat) : List Pend := ws.map fun p => resW p.1 p.2 t

theorem wordPends_at {ws : List (Dst × Word)} {t : Nat} {p : Pend} (h : p ∈ wordPends ws t) : p.at_ = t := by
  obtain ⟨_, _, rfl⟩ := List.mem_map.1 h
  rfl

/-- A result goes behind results of the same cycle. -/
theorem pendIns_behind {p : Pend} : ∀ {l : List Pend}, (∀ q ∈ l, q.at_ ≤ p.at_) → pendIns p l = l ++ [p]
  | [], _ => rfl
  | q :: l, h => by
    obtain ⟨hq, hl⟩ := List.forall_mem_cons.1 h
    rw [pendIns, if_pos hq, pendIns_behind hl, List.cons_append]

/-- Results of one cycle, entered where nothing is outstanding, stand in their order. -/
theorem posts_of_at {t : Nat} {g : Engine} (ps : List Pend) (hps : ∀ p ∈ ps, p.at_ = t)
    (hg : ∀ q ∈ g.pipe.pend, q.at_ ≤ t) :
    g.posts ps = g.modPipe fun x => { x with pend := g.pipe.pend ++ ps } := by
  induction ps generalizing g with
  | nil => simp [Engine.posts, Engine.modPipe]
  | cons p ps ih =>
    obtain ⟨hp, hps⟩ := List.forall_mem_cons.1 hps
    have hpost : g.post p = g.modPipe fun x => { x with pend := g.pipe.pend ++ [p] } := by
      simp only [Engine.post, Engine.modPipe, pendIns_behind fun q hq => hp ▸ hg q hq]
    have hg' : ∀ q ∈ (g.post p).pipe.pend, q.at_ ≤ t := by
      rw [hpost]
      intro q hq
      rcases List.mem_append.1 hq with hq | hq
      · exact hg q hq
      · rw [List.mem_singleton.1 hq, hp]
    rw [Engine.posts, List.foldl_cons, ← Engine.posts, ih hps hg', hpost]
    simp [Engine.modPipe]

/-- Writes of whole registers, in order. -/
def Engine.wrs (g : Engine) (ws : List (Dst × Word)) : Engine := ws.foldl (fun g p => g.wr p.1 p.2) g

/-- Landing whole registers writes them in order. -/
theorem foldl_land_wordPends (ws : List (Dst × Word)) (t : Nat) (g : Engine) :
    (wordPends ws t).foldl Engine.land g = g.wrs ws := by
  induction ws generalizing g with
  | nil => rfl
  | cons p ws ih =>
    rw [wordPends, List.map_cons, List.foldl_cons, resW_land]
    exact ih _

theorem Engine.wrs_frame (g : Engine) (ws : List (Dst × Word)) :
    (g.wrs ws).pipe = g.pipe ∧ (g.wrs ws).mem = g.mem := by
  induction ws generalizing g with
  | nil => exact ⟨rfl, rfl⟩
  | cons p ws ih =>
    obtain ⟨hp, hm⟩ := ih (g.wr p.1 p.2)
    exact ⟨hp.trans (Engine.wr_pipe g _ _), hm.trans (Engine.wr_mem g _ _)⟩

@[simp] theorem Engine.modPipe_act (g : Engine) (f : Pipe → Pipe) : (g.modPipe f).act = g.act := rfl

/-- n cycles in which whole registers are entered to be written as they end, where nothing was outstanding. -/
theorem fixed_words {e n : Nat} {ws : List (Dst × Word)} {s : State} (h : (s.e e).pipe.pend = []) :
    (fixed e n (s.modE e fun g => g.posts (wordPends ws (g.pipe.clk + n)))).e e =
      ((fixed e n s).e e).modPipe fun p => { p with pend := wordPends ws ((s.e e).pipe.clk + n) } := by
  have hposts := posts_of_at (g := s.e e) _ (fun p => wordPends_at (ws := ws) (t := (s.e e).pipe.clk + n)) (by simp [h])
  rw [fixed_e, fixed_e, State.modE_e_same, hposts, h]
  cases hact : (s.e e).act <;> simp only [Engine.modPipe_act, hact, Bool.false_eq_true, if_true, if_false] <;> rfl

/-- Words that are due land together. -/
theorem landUpTo_words {g : Engine} {ws : List (Dst × Word)} {t : Nat} (h : g.pipe.pend = wordPends ws t) :
    g.landUpTo t = (g.wrs ws).modPipe fun p => { p with pend := [] } := by
  simp only [Engine.landUpTo, h, landList_all _ _ _ fun p hp => (wordPends_at (ws := ws) hp).le, foldl_land_wordPends]

/-- An instruction of n cycles that writes whole registers as it ends, on an engine that is ready: the registers are those
of g after the writes, where g is the engine before with its program counter moved. -/
theorem issue_words_ready {q : Iss} {s : State} {n : Nat} {ws : List (Dst × Word)} {body : State → State}
    (h : ready s q.e q.len = true) (hi : q.ill = none) (hb : q.branch = false) (hn : q.need ≤ (s.e q.e).level)
    (hseq : q.seq = true)
    (hbody : ∀ v, OutsideSame s v →
      body v = fixed q.e n (v.modE q.e fun g => g.posts (wordPends ws (g.pipe.clk + n)))) :
    let t := issue q body s
    OnlyEngine q.e s t ∧
      (∃ g : Engine, g.regs = { (s.e q.e).regs with pc := ((s.e q.e).regs.pc + q.len) % pcMod } ∧
        (t.e q.e).regs = (g.wrs ws).regs) ∧
      (t.e q.e).pipe.exc = none ∧
      ∃ dc lb li, (t.e q.e).mem = { (s.e q.e).mem with dcache := dc, lbuf := lb, l1i := li } := by
  intro t
  obtain ⟨-, hissue, -, -, hslot, -, -, hrc, hpend, hmode, -⟩ := ready_iff.1 h
  obtain ⟨hexc, hstall, hsteal, -⟩ := canIssue_parts hissue
  obtain ⟨s1, ht, ho, -, hfet⟩ := issue_ready body h hi (.inl hb) hn
  rw [hbody s1 ho.out] at ht
  have hue := fixed_words (e := q.e) (n := n) (ws := ws) (s := s1) (by rw [hfet.pipe]; exact hpend)
  have hbo : OnlyEngine q.e s1 (fixed q.e n (s1.modE q.e fun g => g.posts (wordPends ws (g.pipe.clk + n)))) :=
    .trans (modE_only q.e s1 _) (fixed_only q.e _ n)
  generalize counting s1 q.e = adm at ht
  generalize fixed q.e n (s1.modE q.e fun g => g.posts (wordPends ws (g.pipe.clk + n))) = u at ht hue hbo
  have hpipe : (u.e q.e).pipe = { (s.e q.e).pipe with
      clk := (s.e q.e).pipe.clk + n, cyc := (s.e q.e).pipe.cyc + n, pend := wordPends ws ((s.e q.e).pipe.clk + n) } := by
    rw [hue, Engine.modPipe_pipe, fixed_pipe, hfet.pipe]
  have hregs : (u.e q.e).regs = (s.e q.e).regs := by rw [hue, Engine.modPipe_regs, fixed_regs, hfet.regs]
  have hmem : (u.e q.e).mem = (s1.e q.e).mem := by rw [hue, Engine.modPipe_mem, fixed_mem]
  obtain ⟨hstall', hsteal', hmode'⟩ :
      (u.e q.e).run.stall = none ∧ (u.e q.e).run.stealing = false ∧ (u.e q.e).run.stepMode = .run := by
    rw [hue, Engine.modPipe_run, fixed_run, hfet.run]
    split <;> exact ⟨hstall, hsteal, hmode⟩
  have hfin := finish_plain (adm := adm) (q := q) (u := u) (by rw [hpipe]; exact hexc) hstall' hsteal'
    (by rw [Engine.rc, hregs]; exact hrc) (by rw [hpipe]; exact hslot) hmode'
  rw [if_pos hseq, landUpTo_words (ws := ws) (by rw [Engine.modRegs_pipe, hpipe]), ← ht] at hfin
  generalize hg : (u.e q.e).modRegs (fun r => { r with pc := ((u.e q.e).regs.pc + q.len) % pcMod }) = g at hfin
  obtain ⟨hwp, hwm⟩ := g.wrs_frame ws
  refine ⟨?_, ⟨g, ?_, ?_⟩, ?_, ?_⟩
  · rw [show t = finish adm q u from ht]
    exact ho.trans (hbo.trans (finish_only _ adm q))
  · rw [← hg, Engine.modRegs_regs, hregs]
  · rw [hfin, Engine.modRun_regs, Engine.modPipe_regs]
  · rw [hfin, Engine.modRun_pipe, Engine.modPipe_pipe, hwp, ← hg, Engine.modRegs_pipe, hpipe]
    exact hexc
  · obtain ⟨dc, lb, li, hm⟩ := hfet.mem
    refine ⟨dc, lb, li, ?_⟩
    rw [hfin, Engine.modRun_mem, Engine.modPipe_mem, hwm, ← hg, Engine.modRegs_mem, hmem, hm]

end Sys2Proof.Machine
end

section
/-! PROOFS. The statements about the instruction set: the short format, the formats of floating point, device time. -/

namespace Sys2Proof.Machine

open Sys2Proof.Claims

/-! ## The short format (R136 to R138) -/

/-- Settles O1: each instruction is one short-format instruction of the model, and its result gives the word and the flags. -/
theorem shortIntegerResults : Obligations.ShortIntegerResults := by
  intro e a b he ha hb
  exact
    ⟨shortDoes_of_shortI he ha hb (fun _ => rfl) fun _ y _ => aluPlain_gives y,
     shortDoes_of_shortI he ha hb (fun _ => rfl) fun x y _ => addR_zero_gives x y,
     shortDoes_of_shortI he ha hb (fun _ => rfl) addR_gives,
     shortDoes_of_shortI he ha hb (fun _ => rfl) fun x y _ => subR_zero_gives x y,
     shortDoes_of_shortI he ha hb (fun _ => rfl) subR_gives,
     shortDoes_of_shortI he ha hb (fun _ => rfl) fun x y _ => aluZN_gives (x &&& y),
     shortDoes_of_shortI he ha hb (fun _ => rfl) fun x y _ => aluZN_gives (x ||| y),
     shortDoes_of_shortI he ha hb (fun _ => rfl) fun x y _ => aluZN_gives (x ^^^ y),
     shortDoes_of_shortI he ha hb (fun _ => rfl) fun x y _ => aluZN_gives (x &&& ~~~y),
     shortDoes_of_shortI he ha hb (fun _ => rfl) fun _ y _ => aluZN_gives (~~~y),
     shortDoes_of_shortI he ha hb (fun _ => rfl) fun _ y _ => negR_gives y,
     shortTests_of_shortI he ha hb (fun _ => rfl) fun x y _ => (subR_zero_gives x y).flagsOnly,
     shortTests_of_shortI he ha hb (fun _ => rfl) fun x y _ => (aluZN_gives (x &&& y)).flagsOnly,
     shortDoes_of_shortI he ha hb (fun _ => rfl) fun x y _ => shlR_gives x y.toNat,
     shortDoes_of_shortI he ha hb (fun _ => rfl) fun x y _ => shrR_gives x y.toNat,
     shortDoes_of_shortI he ha hb (fun _ => rfl) fun x y _ => sarR_gives x y.toNat,
     shortDoes_of_shortI he ha hb (fun _ => rfl) fun x y _ => rolR_gives x y.toNat,
     shortDoes_of_shortI he ha hb (fun _ => rfl) fun x y _ => aluSat_gives (x.toInt + y.toInt),
     shortDoes_of_shortI he ha hb (fun _ => rfl) fun x y _ => aluSat_gives (x.toInt - y.toInt),
     shortDoes_of_shortI he ha hb (fun _ => rfl) fun _ y _ => negS_gives y,
     shortDoes_of_shortI he ha hb (fun _ => rfl) fun _ y _ => absR_gives y,
     shortDoes_of_shortI he ha hb (fun _ => rfl) fun _ y _ => aluSat_gives y.toInt.natAbs,
     shortDoes_of_shortI he ha hb (fun _ => rfl) fun x y _ => aluZN_gives (if x.toInt ≤ y.toInt then x else y),
     shortDoes_of_shortI he ha hb (fun _ => rfl) fun x y _ => aluZN_gives (if x.toInt ≤ y.toInt then y else x),
     shortDoes_of_shortI he ha hb (fun _ => rfl) fun x y _ => aluZN_gives (if x.toNat ≤ y.toNat then x else y),
     shortDoes_of_shortI he ha hb (fun _ => rfl) fun x y _ => aluZN_gives (if x.toNat ≤ y.toNat then y else x),
     shortDoes_of_shortI he ha hb (fun _ => rfl) fun _ y _ => clzR_gives y,
     shortDoes_of_shortI he ha hb (fun _ => rfl) fun _ y _ => packR_gives y,
     shortDoes_of_shortI he ha hb (fun _ => rfl) fun _ y _ => unpkR_gives y⟩

/-! ## The formats (R145) -/

/-- Settles O4: the words of R145, computed from the two formats. -/
theorem formatEncodings : Obligations.FormatEncodings := by
  unfold Obligations.FormatEncodings
  decide

/-! ## RDT (R171) -/

theorem rest_wr_w (g : Engine) (n : Nat) (v : Word) : rest (g.wr (.w n) v).regs = rest g.regs := rfl

/-- RDT into an even register has no illegal field. -/
theorem rdt_fields_legal {a : Nat} (h : a % 2 = 0) : orCause (unused 0) (pairOdd a) = none := by
  simp [unused, pairOdd, orCause, h]

/-- What RDT leaves on an engine that is ready: the seconds and the nanoseconds of device time are written to the pair. -/
theorem rdt_ready {e a : Nat} {s : State} (ha : a < 16) (hpair : a % 2 = 0) (hs : ready s e 1 = true) :
    ∃ t, ∃ u : Engine, exec (.rdt e a 0) s = .next t ∧ OnlyEngine e s t ∧
      u.regs = { (s.e e).regs with pc := ((s.e e).regs.pc + 1) % pcMod } ∧
      (t.e e).regs = ((u.wr (.w a) (mkW (s.net.devTime / 64000000000))).wr (.w (a + 1))
        (mkW (s.net.devTime % 64000000000))).regs ∧
      (t.e e).pipe.exc = none ∧
      ∃ dc lb li, (t.e e).mem = { (s.e e).mem with dcache := dc, lbuf := lb, l1i := li } := by
  obtain ⟨he, -⟩ := ready_iff.1 hs
  obtain ⟨ho, ⟨u, hu, hregs⟩, hexc, hmem⟩ := issue_words_ready
    (q := ctlQ (.rdt e a 0) e (orCause (unused 0) (pairOdd a)) true 0 [] (fieldRegs a 2) true) (n := 2)
    (ws := [(.w a, mkW (s.net.devTime / 64000000000)), (.w (a + 1), mkW (s.net.devTime % 64000000000))])
    (body := fun s =>
      let n := s.net.devTime
      fixed e 2 (s.modE e fun g =>
        let t := g.pipe.clk + 2
        g.posts [resW (.w a) (mkW (n / 64000000000)) t, resW (.w (a + 1)) (mkW (n % 64000000000)) t]))
    hs (rdt_fields_legal hpair) rfl (Nat.zero_le _) rfl (fun v hv => by rw [← hv.net]; rfl)
  exact ⟨_, u, onEngine_next he (okAB_true ha (by decide)) _, ho, hu, hregs, hexc, hmem⟩

/-- Settles O8: the two words come from one reading of device time, and land together. -/
theorem readDeviceTime : Obligations.ReadDeviceTime := by
  intro e a s ha hpair hs
  obtain ⟨t, u, hx, ho, hu, hregs, hexc, hmem⟩ := rdt_ready ha hpair hs
  have hw (r : Nat) : u.w r = (s.e e).w r := by rw [Engine.w, hu]; rfl
  refine ⟨t, hx, Ran.of_parts ho ?_ hexc ?_ hmem, ?_, fun r => ?_⟩
  · rw [hregs, Engine.wr_pc, Engine.wr_pc, hu]; rfl
  · rw [hregs, rest_wr_w, rest_wr_w, hu]; rfl
  · rw [hregs, Engine.wr_w_st, Engine.wr_w_st, hu]
  · refine (congrArg (wOf · r) hregs).trans ?_
    change ((u.wr _ _).wr _ _).w r = _
    rw [Nat.div_div_eq_div_mul]
    by_cases h0 : r = a
    · subst h0
      rw [Engine.wr_w_ne _ _ (by omega), Engine.wr_w_same, if_pos rfl]
      rfl
    · rw [if_neg h0]
      by_cases h1 : r = a + 1
      · subst h1
        rw [Engine.wr_w_same, if_pos rfl]
        rfl
      · rw [if_neg h1, Engine.wr_w_ne _ _ (Ne.symm h1), Engine.wr_w_ne _ _ (Ne.symm h0), hw]

end Sys2Proof.Machine
end
